-- ==== Sys2Proof/Word.lean ====
section
/-! DEFINITION. The byte, and the two conversions between bytes and whole numbers. The links carry bytes (09, Table 9-1);
every quantity the spec counts is a whole number (00_scope.md 4.1). -/

namespace Sys2Proof

/-- One byte of a frame. -/
abbrev Byte := BitVec 8

/-- The byte that holds `n` (its low eight bits). -/
def byte (n : Nat) : Byte := BitVec.ofNat 8 n

/-- The 4096 bytes of a block, first byte first. -/
abbrev Block := List Byte

end Sys2Proof
end

