-- ==== Sys2Proof/Syntax.lean ====
section
/-! DEFINITION. The commands of the part: one constructor per row of spec/opcode_table.json, in the table's order.
Links are numbered 0 (the supervisor link) and 1..16 (node links); nodes, bays, slots and channels as in
00_scope.md 4.2. A frame that is taken stands at the head of its link's inbound queue, so its fields are no operands. -/

namespace Sys2Proof

/-- The answer to a READ BLOCK (Table 7-5), with the block's bytes when it is OK. -/
inductive ReadOutcome where
  | ok (data : Block)
  | mediaError
  deriving DecidableEq, Repr

/-- The answer to a WRITE BLOCK (Table 7-5). -/
inductive WriteOutcome where
  | ok
  | mediaError
  deriving DecidableEq, Repr

/-- The answer to a VERIFY RUN (Table 7-5): OK, or MEDIA ERROR on the first bad block `n`. -/
inductive VerifyOutcome where
  | ok
  | mediaError (n : Nat)
  deriving DecidableEq, Repr

/-- The commands. `op` in a disk answer is the number of the disk operation it answers (log entry 10); `farReady` is
the far ready line as the link next tests it, now or when a record is placed (log entry 7). -/
inductive Instr where
  | borrow (node : Nat)
  | withdraw (node : Nat)
  | returnLoan (node : Nat)
  | hold (node : Nat)
  | query (node : Nat)
  | read (node : Nat)
  | write (node : Nat)
  | data (node : Nat)
  | stream (node : Nat)
  | cancel (node : Nat)
  | unknownKindFrame (link : Nat)
  | setBay
  | setNode
  | setShelf
  | copy
  | haltCopy
  | dropTwin
  | releaseBay
  | restoreBay
  | reclaim
  | report
  | readCause
  | arm
  | save
  | resetShelf
  | powerOn
  | pinReset
  | frameArrive (link : Nat) (bytes : List Byte)
  | recordSent (link : Nat) (farReady : Bool)
  | farReadyRise (link : Nat)
  | nodePresenceFall (node : Nat)
  | nodePresenceRise (node : Nat) (farReady : Bool)
  | supervisorPresenceFall
  | supervisorPresenceRise (farReady : Bool)
  | idleClockExpiry (slot : Nat)
  | dataGapExpiry (node tag : Nat)
  | upkeepTimerExpiry (bay : Nat)
  | spinUpTimeout (bay : Nat)
  | identifyTimeout (bay : Nat)
  | operationNoAnswer (bay : Nat)
  | spinDownTimeout (bay : Nat)
  | spinUpReady (bay op : Nat)
  | identifyAnswer (bay op capacity : Nat)
  | readBlockAnswer (bay op : Nat) (outcome : ReadOutcome)
  | writeBlockAnswer (bay op : Nat) (outcome : WriteOutcome)
  | verifyRunAnswer (bay op : Nat) (outcome : VerifyOutcome)
  | spinDownDone (bay op : Nat)
  | bayPresenceRise (bay : Nat)
  | bayPresenceFall (bay : Nat)
  | releaseButtonPress (bay : Nat)
  | saveComplete
  | dispatchPoint (bay : Nat)
  | poolServe
  | dataPlaceWaiting (node : Nat)
  | loanNoticePlace (node : Nat)
  | noticePlace
  | spinAdmit
  | segmentBoundary (node tag : Nat)
  | heldMoveCarryOut (slot : Nat)
  | drainComplete (bay : Nat)
  | copyEnd (channel : Nat)
  | tick
  | overlongFrameDiscard (link length : Nat)
  deriving DecidableEq, Repr

end Sys2Proof
end

