-- ==== Sys2Proof/Decode.lean ====
section
/-! DEFINITION. The command that a word spells by the table's bits. No row of spec/opcode_table.json gives bits (the part
is a block: its commands are events, not words), so no word spells a command (log entry 25). The bytes that the part
does decode, its frames and their bodies, are decoded in Machine/Bytes.lean and Machine/Operands.lean. -/

namespace Sys2Proof

def decodeTableWord (_nbits _w : Nat) : Option Instr := none

end Sys2Proof
end

