-- ==== Sys2Proof/Config.lean ====
section
/-! DEFINITION. The sizes the spec fixes, and the values it leaves open. -/

namespace Sys2Proof.Config

/-- Loan table slots (R1). -/
def slots : Nat := 96
/-- Wait list entries (R26). -/
def waitEntries : Nat := 64
/-- Command records of the shelf, of a node and of a loan (R62). -/
def shelfRecords : Nat := 256
def nodeRecords : Nat := 24
def loanRecords : Nat := 4
/-- Block buffers of the pool (R79). -/
def buffers : Nat := 384
/-- Bays, nodes, twin records, copy channels (R121, R149, R151). -/
def bays : Nat := 24
def nodes : Nat := 16
def twins : Nat := 6
def channels : Nat := 2
/-- Frames of an inbound queue, entries of an outbound queue (R170, R172). -/
def inbound : Nat := 8
def outbound : Nat := 64
/-- Blocks of a chunk (R154) and of a weak list (R144). -/
def chunk : Nat := 32
def weak : Nat := 16
/-- The most body bytes of a frame (R169). -/
def bodyMax : Nat := 4104
/-- Bytes of a block (R79), and of the settings image (10.4). -/
def blockBytes : Nat := 4096
def imageBytes : Nat := 716
/-- The fixed limit of the first SPIN UP after power-on, in ticks (R129). -/
def powerOnSpinLimit : Nat := 3000
/-- Ticks of a second (00_scope.md 4.1). -/
def ticksPerSecond : Nat := 100

/-- DESIGN CHOICE (log entry 14). What a code that Table 9-4 does not list stands for, in a settings image whose check
passes: R189 takes such an image as it stands and states no value for the code. A free value: nothing constrains it. -/
opaque unlistedCode : Byte → Nat

/-- DESIGN CHOICE (log entry 7). The far ready line of a link as the link next tests it, after a reset or after a rise that
finds no record placed: the table has no row for a fall of the line, so it may have fallen by then. A free value, of the link
and of the number of such values it has read: nothing constrains it. -/
opaque farReadyLine : Nat → Nat → Bool

/-- DESIGN CHOICE (log entry 17). What a bay's quantum of 0 counts as, less 1 and modulo 64, where credit is added: R106 gives
the quantum as 1..64 and each addition as at least 1, and a loaded image can hold 0 (R189). A free value, of the bay: nothing
constrains it. -/
opaque zeroQuantum : Nat → Nat

/-- DESIGN CHOICE (log entry 49). Which of the 14 DONE and STREAM END statuses of Table 9-4, modulo 14, a command gets when its
loan ends HOLD_EXPIRED: R15 gives the end reason as the status, and the table lists no such status. A free value: nothing
constrains it. -/
opaque holdExpiredStatus : Nat

end Sys2Proof.Config
end

