-- ==== Sys2Proof/Machine/State.lean ====
section
/-! DEFINITION. The state of the part: every item of the tables of spec/, each under the block that owns it
(00_scope.md, Table 0-1), the reasons a command can stop, and the state after reset. Plain data throughout. -/

namespace Sys2Proof.Machine

/-! ### Enumerated values (Table 9-4) -/

/-- Loan kinds (1.3). -/
inductive LoanKind where
  | view | keep
  deriving DecidableEq, Repr, Inhabited

/-- Service classes, highest first (00_scope.md 5). -/
inductive Cls where
  | rush | normal | bulk
  deriving DecidableEq, Repr, Inhabited

/-- Loan states (Table 1-1). -/
inductive LoanState where
  | active | returning | ending | ended
  deriving DecidableEq, Repr, Inhabited

/-- End reasons (Table 1-3). -/
inductive EndReason where
  | returned | holdExpired | reclaimed | bayFault | bayReleased | twinDropped | linkLost
  deriving DecidableEq, Repr, Inhabited

/-- Pending notices of a loan (Table 1-1). -/
inductive LoanNotice where
  | loanEnded | loanMoved
  deriving DecidableEq, Repr, Inhabited

/-- DONE and STREAM END status words (R76, R90). -/
inductive Status where
  | ok | mediaError | cancelled | reclaimed | bayFault | bayReleased | twinDropped
  | noLoan | ended | readOnly | outside | limit | dataLate | dataOrder
  | linkLost  -- never placed: R84 places nothing for a lost link
  deriving DecidableEq, Repr, Inhabited

/-- Shelf levels (Table 2-2). -/
inductive Level where
  | openShelf | crunch | lockdown
  deriving DecidableEq, Repr, Inhabited

/-- Reason words of REFUSED to a node and of QUEUED (R13, R32). -/
inductive NodeReason where
  | noBay | bayReleasing | twinTarget | outside | nodeLimit | waitFull | spin | masked | conflict | copying | order
  | tableFull | withdrawn
  deriving DecidableEq, Repr, Inhabited

/-- Status words of RETURNED and HELD. -/
inductive ReturnStatus where
  | ok | ended | noLoan
  deriving DecidableEq, Repr, Inhabited

/-- Origins of RESTARTED (R176). -/
inductive Origin where
  | presence | reset
  deriving DecidableEq, Repr, Inhabited

/-- Reasons of REFUSED to the supervisor. -/
inductive SupReason where
  | noLoan | bayState | noDisk | notReady | targetBusy | sourceBusy | outside | keepHeld | noChannel | noTwin | noRecord
  | notCopying | busy
  deriving DecidableEq, Repr, Inhabited

/-- Results that TAKEN carries. -/
inductive TakenResult where
  | reclaimed | unchanged | halting | dropped | retiring
  deriving DecidableEq, Repr, Inhabited

/-- REJECT reasons and places (R174). -/
inductive RejectReason where
  | unknownKind | badLength | badField | badTag | dupTag | noTarget | nodeDisabled
  deriving DecidableEq, Repr, Inhabited
inductive Place where
  | body | header
  deriving DecidableEq, Repr, Inhabited

/-- Bay states (Table 7-3) and fault causes. -/
inductive BayState where
  | empty | spinWait | spinning | ready | draining | stopping | released | faulted
  deriving DecidableEq, Repr, Inhabited
inductive FaultCause where
  | noSpin | badIdentify | noAnswer | pulled
  deriving DecidableEq, Repr, Inhabited

/-- Twin states (Table 8-2), copy channel phases and end statuses (Table 8-3). -/
inductive TwinState where
  | copying | live | stale | orphan
  deriving DecidableEq, Repr, Inhabited
inductive Phase where
  | none | queued | chosen | reading | pending | writing
  deriving DecidableEq, Repr, Inhabited
inductive CopyEnd where
  | halted | aborted
  deriving DecidableEq, Repr, Inhabited

/-- Notice kinds in priority order (Table 10-2) and the status of a COPY notice. -/
inductive NoticeKind where
  | cause | bay | copy | worn | weak
  deriving DecidableEq, Repr, Inhabited
inductive NoticeStatus where
  | none | started | done | halted | aborted
  deriving DecidableEq, Repr, Inhabited

/-! ### Settings (10.1) -/

/-- A run of blocks first..last (1.3). -/
structure Range where
  first : Nat
  last  : Nat
  deriving DecidableEq, Repr, Inhabited

/-- A bay's profile (Table 10-1). -/
structure Profile where
  enabled          : Bool
  releasePermitted : Bool
  quantum          : Nat
  seekExponent     : Nat
  seekCap          : Nat
  holdMinimum      : Nat
  hotThreshold     : Nat
  spare            : Option Nat
  hotFirst         : Nat
  hotLast          : Nat
  upkeepPeriod     : Nat
  upkeepLength     : Nat
  operationTimeout : Nat
  spinLimit        : Nat
  deriving DecidableEq, Repr, Inhabited

/-- A node's entry in the node table (R181). -/
structure NodeEntry where
  enabled   : Bool
  classCap  : Cls
  loanLimit : Nat
  holdBase  : Nat
  dataGap   : Nat
  deriving DecidableEq, Repr, Inhabited

/-- The working settings (10.1): what SET changes, SAVE stores and a load replaces. -/
structure Settings where
  profiles  : List Profile
  nodeTable : List NodeEntry
  level     : Level
  spinGroup : Nat
  deriving DecidableEq, Repr, Inhabited

/-- Table 11-2. -/
def Profile.default : Profile :=
  { enabled := true, releasePermitted := true, quantum := 8, seekExponent := 14, seekCap := 16, holdMinimum := 100,
    hotThreshold := 0, spare := none, hotFirst := 0, hotLast := 0, upkeepPeriod := 3600, upkeepLength := 64,
    operationTimeout := 200, spinLimit := 2000 }
def NodeEntry.default : NodeEntry :=
  { enabled := true, classCap := .normal, loanLimit := 4, holdBase := 500, dataGap := 50 }
def Settings.default : Settings :=
  { profiles := List.replicate Config.bays Profile.default,
    nodeTable := List.replicate Config.nodes NodeEntry.default,
    level := .openShelf, spinGroup := 4 }

/-! ### Loans and waiting requests -/

/-- A loan id: slot and issue (R1). -/
structure LoanId where
  slot  : Nat
  issue : Nat
  deriving DecidableEq, Repr, Inhabited

/-- A move held by R21: the new placed bay ("move to"), the new via twin value kept with it, and the reason with which
the loan ends when the move is cleared or cannot be made (R166). -/
structure HeldMove where
  bay    : Nat
  via    : Option Nat
  reason : EndReason
  deriving DecidableEq, Repr, Inhabited

/-- The loan record (Table 1-1). -/
structure Loan where
  borrower  : Nat
  askedBay  : Nat
  placedBay : Nat
  viaTwin   : Option Nat
  kind      : LoanKind
  cls       : Cls
  range     : Option Range
  state     : LoanState
  endReason : Option EndReason
  holdBase  : Nat
  holdLimit : Nat
  idle      : Nat
  commands  : Nat
  notice    : Option LoanNotice
  returnTag : Option Nat
  move      : Option HeldMove
  deriving DecidableEq, Repr, Inhabited

/-- A slot of the loan table (R1). -/
structure Slot where
  issue : Nat
  loan  : Option Loan
  deriving DecidableEq, Repr, Inhabited

/-- A wait entry (Table 2-1). -/
structure WaitEntry where
  node    : Nat
  tag     : Nat
  bay     : Nat
  kind    : LoanKind
  cls     : Cls
  range   : Option Range
  arrival : Nat
  masked  : Bool
  deriving DecidableEq, Repr, Inhabited

/-! ### Commands and the pool -/

inductive CommandKind where
  | read | write | stream
  deriving DecidableEq, Repr, Inhabited
inductive CommandState where
  | gathering | queued | poolWait | inService | delivering
  deriving DecidableEq, Repr, Inhabited

/-- A command record (Tables 4-1 and 5-1). `gathered` is the data of a WRITE's filled buffers; `outcome` is the status
of a READ's finished disk work, or MEDIA_ERROR of a stream's present segment; `replied` says that the final reply has
been placed (or its reservation is gone). -/
structure Command where
  node       : Nat
  tag        : Nat
  loan       : LoanId
  kind       : CommandKind
  first      : Nat
  count      : Nat
  segSize    : Nat
  total      : Nat
  delivered  : Nat
  segFirst   : Nat
  state      : CommandState
  held       : Nat
  done       : Nat
  nextIndex  : Nat
  dataGap    : Nat
  gapTimer   : Nat
  stop       : Bool
  carry      : Nat
  closing    : Option Status
  outcome    : Option Status
  replied    : Bool
  gathered   : List Block
  deriving DecidableEq, Repr, Inhabited

/-- Who waits for buffers: a bay or a node link (R80). -/
inductive WaiterKind where
  | bay (b : Nat)
  | link (n : Nat)
  deriving DecidableEq, Repr, Inhabited
structure Waiter where
  who   : WaiterKind
  count : Nat
  deriving DecidableEq, Repr, Inhabited

/-! ### Bays -/

/-- A command record's name: node and tag (4.1). -/
structure CommandRef where
  node : Nat
  tag  : Nat
  deriving DecidableEq, Repr, Inhabited

/-- A unit of work for the disk (R97). `lost` is the unit that a reset left with one operation in progress (R98). -/
inductive DiskUnit where
  | command (ref : CommandRef)
  | chunkRead (channel : Nat)
  | chunkWrite (channel : Nat)
  | verify
  | lost
  deriving DecidableEq, Repr, Inhabited

/-- A disk operation (Table 7-5). -/
inductive DiskOp where
  | spinUp
  | identify
  | readBlock (block : Nat)
  | writeBlock (block : Nat) (data : Block)
  | verifyRun (first count : Nat)
  | spinDown
  deriving DecidableEq, Repr, Inhabited

/-- The kinds of disk operation (Table 7-5). -/
inductive OpKind where
  | spinUp | identify | readBlock | writeBlock | verifyRun | spinDown
  deriving DecidableEq, Repr, Inhabited

/-- Who is a member of a service ring (R99). -/
inductive MemberKind where
  | loan (slot : Nat)
  | channel (c : Nat)
  deriving DecidableEq, Repr, Inhabited

/-- A member of a service ring (Table 6-1). `queued` is the member's queued commands in order; a copy channel's one
chunk read is no command record, so its list is empty. -/
structure Member where
  who     : MemberKind
  cls     : Cls
  credit  : Int
  visited : Bool
  queued  : List CommandRef
  deriving DecidableEq, Repr, Inhabited

/-- A running upkeep timer: the whole seconds since its start, the ticks 0..99 past the last of them (log entry 8), and the
period read at its start (R141, Table 7-1). -/
structure UpkeepTimer where
  seconds : Nat
  ticks   : Nat
  period  : Nat
  deriving DecidableEq, Repr, Inhabited

/-- A bay controller with its port arbiter and lines (Tables 6-1 and 7-1). The ring is listed from the pointer member on
(log entry 13), so the pointer is absent exactly when the list is empty. `opNumber` numbers the bay's disk operations
(log entry 10). -/
structure Bay where
  presence    : Bool
  state       : BayState
  faultCause  : Option FaultCause
  capacity    : Option Nat
  head        : Nat
  cursor      : Nat
  upkeepTimer : Option UpkeepTimer
  upkeepDue   : Bool
  powerOnSpin : Bool
  op          : Option DiskOp
  opNumber    : Nat
  opTimer     : Nat
  opLimit     : Nat
  weak        : List Nat
  ring        : List Member
  deferral    : Nat
  chosen      : Option DiskUnit
  chunkWrite  : Option Nat
  service     : Option DiskUnit
  deriving DecidableEq, Repr, Inhabited

/-- R147, R98, with the presence line low. -/
def Bay.initial : Bay :=
  { presence := false, state := .empty, faultCause := none, capacity := none, head := 0, cursor := 0,
    upkeepTimer := none, upkeepDue := false, powerOnSpin := false, op := none, opNumber := 0, opTimer := 0,
    opLimit := 0, weak := [], ring := [], deferral := 0, chosen := none, chunkWrite := none, service := none }

/-! ### Twins and copy channels -/

/-- A twin record (Table 8-1). -/
structure Twin where
  source   : Nat
  target   : Nat
  first    : Nat
  last     : Nat
  state    : TwinState
  channel  : Option Nat
  next     : Nat
  retiring : Bool
  deriving DecidableEq, Repr, Inhabited

/-- A copy channel (Table 8-3), with the data of its filled buffers. -/
structure Channel where
  busy       : Bool
  twin       : Nat
  phase      : Phase
  chunkFirst : Nat
  chunkCount : Nat
  held       : Nat
  endStatus  : Option CopyEnd
  filled     : List Block
  deriving DecidableEq, Repr, Inhabited

/-- R151. -/
def Channel.free : Channel :=
  { busy := false, twin := 0, phase := .none, chunkFirst := 0, chunkCount := 0, held := 0, endStatus := none,
    filled := [] }

/-! ### Supervisor state -/

/-- A notice kind's state (10.3). -/
structure Notice where
  pending : Bool
  armed   : Bool
  count   : Nat
  subject : Nat
  status  : NoticeStatus
  deriving DecidableEq, Repr, Inhabited

/-- The five notice kinds. -/
structure Notices where
  cause : Notice
  bay   : Notice
  copy  : Notice
  worn  : Notice
  weak  : Notice
  deriving DecidableEq, Repr, Inhabited

/-- R184: after every reset. -/
def Notices.afterReset : Notices :=
  let quiet : Notice := { pending := false, armed := true, count := 0, subject := 0, status := .none }
  { cause := { quiet with pending := true, count := 1 }, bay := quiet, copy := quiet, worn := quiet, weak := quiet }

/-- The cause record (R190). -/
structure Cause where
  power    : Bool
  pin      : Bool
  shelf    : Bool
  defaults : Bool
  deriving DecidableEq, Repr, Inhabited

/-- A save in progress (R186): the snapshot's image, the SAVE's tag while its reservation stands, the check word, and
the ticks since the taking. -/
structure Save where
  image : List Byte
  tag   : Option Nat
  check : Nat
  ticks : Nat
  deriving DecidableEq, Repr, Inhabited

/-! ### Reports (R183) -/

/-- R146 and R120, with the profile. -/
structure BayReport where
  bay         : Nat
  state       : BayState
  faultCause  : Option FaultCause
  capacity    : Option Nat
  presence    : Bool
  spinPlace   : Option Nat
  cursor      : Nat
  upkeepDue   : Bool
  upkeepTimer : Option Nat
  operation   : Option OpKind
  weak        : List Nat
  members     : List (MemberKind × Nat × Cls × Int)  -- who, the loan's issue (0 for a channel), class, credit
  pointer     : Option MemberKind
  deferral    : Nat
  queuedCount : Nat
  chosenCount : Option Nat
  chunkWrite  : Bool
  head        : Nat
  profile     : Profile
  deriving DecidableEq, Repr, Inhabited

/-- What REPORT LOAN carries for a held slot: Table 1-1, the source bay and the pressure. -/
structure LoanDetail where
  borrower  : Nat
  askedBay  : Nat
  placedBay : Nat
  viaTwin   : Option Nat
  kind      : LoanKind
  cls       : Cls
  range     : Option Range
  state     : LoanState
  endReason : Option EndReason
  holdBase  : Nat
  holdLimit : Nat
  idle      : Nat
  commands  : Nat
  notice    : Option LoanNotice
  returnTag : Option Nat
  moveTo    : Option Nat
  sourceBay : Nat
  pressure  : Nat
  deriving DecidableEq, Repr, Inhabited

structure LoanReport where
  slot   : Nat
  issue  : Nat
  loan   : Option LoanDetail
  deriving DecidableEq, Repr, Inhabited

structure NodeReport where
  node     : Nat
  entry    : NodeEntry
  presence : Bool
  loans    : Nat
  waits    : Nat
  records  : Nat
  placed   : Nat
  reserved : Nat
  free     : Nat
  poolWait : Option Nat
  entries  : List WaitEntry
  deriving DecidableEq, Repr, Inhabited

structure PoolReport where
  free       : Nat
  byCommands : Nat
  byChannels : Nat
  waiters    : List Waiter
  deriving DecidableEq, Repr, Inhabited

/-- What REPORT TWINS carries of a copy channel (R168). -/
structure ChannelReport where
  busy       : Bool
  twin       : Nat
  phase      : Phase
  chunkFirst : Nat
  chunkCount : Nat
  held       : Nat
  endStatus  : Option CopyEnd
  deriving DecidableEq, Repr, Inhabited

structure TwinReport where
  records  : List (Nat × Twin × Nat)  -- number, record, loans that name it
  channels : List ChannelReport
  deriving DecidableEq, Repr, Inhabited

structure ShelfReport where
  level     : Level
  spinGroup : Nat
  spinning  : List Nat
  spinQueue : List Nat
  loans     : Nat
  waits     : Nat
  records   : Nat
  arrival   : Nat
  saving    : Bool
  notices   : Notices
  cause     : Cause
  deriving DecidableEq, Repr, Inhabited

inductive Report where
  | bay (r : BayReport)
  | loan (r : LoanReport)
  | node (r : NodeReport)
  | pool (r : PoolReport)
  | twins (r : TwinReport)
  | shelf (r : ShelfReport)
  deriving DecidableEq, Repr, Inhabited

/-! ### Records and links -/

/-- An entry of LOANS (9.6.7). -/
structure LoansEntry where
  id        : LoanId
  askedBay  : Nat
  placedBay : Nat
  viaTwin   : Option Nat
  kind      : LoanKind
  cls       : Cls
  range     : Option Range
  state     : LoanState
  endReason : Option EndReason
  holdLimit : Nat
  idle      : Nat
  commands  : Nat
  notice    : Option LoanNotice
  deriving DecidableEq, Repr, Inhabited

/-- The records the part places (Table 9-3), with their fields. -/
inductive Record where
  | granted (id : LoanId) (placed : Nat) (kind : LoanKind) (cls : Cls) (range : Option Range) (limit : Nat)
  | queued (cls : Cls) (reason : NodeReason)
  | refused (reason : NodeReason)
  | returned (id : LoanId) (status : ReturnStatus) (reason : Option EndReason)
  | held (id : LoanId) (status : ReturnStatus) (limit : Option Nat) (reason : Option EndReason)
  | data (block index : Nat) (bytes : Block)
  | done (status : Status) (blocks : Nat)
  | streamEnd (status : Status) (blocks : Nat)
  | loans (entries : List LoansEntry)
  | loanEnded (id : LoanId) (reason : Option EndReason)
  | loanMoved (id : LoanId) (bay : Nat)
  | restarted (node : Nat) (origin : Origin)
  | reject (reason : RejectReason) (place : Place) (offset kind : Nat)
  | takenSetBay (bay : Nat) (profile : Profile)
  | takenSetNode (node : Nat) (entry : NodeEntry)
  | takenSetShelf (level : Level) (spinGroup : Nat)
  | takenCopy (twin channel source target first last : Nat)
  | takenTwin (twin : Nat) (result : TakenResult)
  | takenBay (bay : Nat) (state : BayState)
  | takenReclaim (id : LoanId) (result : TakenResult) (state : LoanState) (reason : Option EndReason)
  | takenArm (cause bay copy worn weak : Bool)
  | refusedSup (reason : SupReason)
  | refusedBay (bay : Nat) (state : BayState)  -- REFUSED BAY_STATE, which carries the bay and its state (R134, R140)
  | report (r : Report)
  | cause (flags : Cause)
  | saved (check : Nat)
  | notice (kind : NoticeKind) (count subject : Nat) (status : NoticeStatus)
  deriving DecidableEq, Repr, Inhabited

/-- A placed record with its tag (R172, R173). -/
structure OutRecord where
  tag    : Nat
  record : Record
  deriving DecidableEq, Repr, Inhabited

/-- A filled block that waits for an outbound entry (R72): the tag of its READ or STREAM, block number, index, bytes. -/
structure WaitingData where
  tag   : Nat
  block : Nat
  index : Nat
  bytes : Block
  deriving DecidableEq, Repr, Inhabited

/-- A frame received whole (Table 9-1). -/
structure Frame where
  kind : Nat
  tag  : Nat
  body : List Byte
  deriving DecidableEq, Repr, Inhabited

/-- The receiver of a link (R169): hunting for SYNC, or the bytes received after SYNC, latest first. -/
inductive Receiver where
  | hunting
  | inFrame (got : List Byte)
  deriving DecidableEq, Repr, Inhabited

/-- A link interface (Table 0-1, 09). `sending` says that the first placed record's sending has begun (R173); `farReady` is
the far ready line as the link next tests it, and `lineReads` numbers its free values (log entry 7). -/
structure Link where
  presence    : Bool
  farReady    : Bool
  lineReads   : Nat
  receiver    : Receiver
  inbound     : List Frame
  placed      : List OutRecord
  reserved    : Nat
  sending     : Bool
  heldWrite   : Bool
  waitingData : List WaitingData
  deriving DecidableEq, Repr, Inhabited

/-- R178, with the link's lines low. -/
def Link.initial : Link :=
  { presence := false, farReady := false, lineReads := 0, receiver := .hunting, inbound := [], placed := [], reserved := 0,
    sending := false, heldWrite := false, waitingData := [] }

/-! ### The machine -/

/-- The part. `links` are numbered 0 (supervisor) and 1..16; `scanDue` says that the present handling owes a grant
scan (R33, log entry 3); `pending` is the queue of commands. -/
structure State where
  links     : List Link
  loans     : List Slot
  waits     : List WaitEntry
  arrival   : Nat
  records   : List Command
  poolFree  : Nat
  poolWait  : List Waiter
  bays      : List Bay
  spinQueue : List Nat
  channels  : List Channel
  twins     : List (Option Twin)
  settings  : Settings
  notices   : Notices
  store     : List Byte
  saving    : Option Save
  cause     : Cause
  scanDue   : Bool
  pending   : List Instr
  deriving DecidableEq, Repr, Inhabited

/-- Why the part stops. The spec gives the part no fault that stops it, so there is none; the faults of its bays are next
states. -/
inductive Fault where
  deriving DecidableEq, Repr

/-- Why a command is not one of the part's (log entry 16). Each is safe: the model stops. -/
inductive Refusal where
  /-- Raised by an arm of `exec` that has no meaning yet. Safe. -/
  | notModelled (mnemonic : String)
  /-- Raised by a command that names a node or link outside 00_scope.md 4.2. Safe. -/
  | noSuchLink
  /-- Raised by a command that names a bay above 23. Safe. -/
  | noSuchBay
  /-- Raised by a command that names a loan table slot above 95. Safe. -/
  | noSuchSlot
  /-- Raised by a command that names a copy channel above 1. Safe. -/
  | noSuchChannel
  /-- Raised by a tag, a LENGTH, or a disk's answer outside the ranges of spec/ (Tables 4-1, 7-5, 9-1). Safe. -/
  | outOfRange
  deriving DecidableEq, Repr, Inhabited

/-- The outcome of a command. -/
abbrev Result := Host.Outcome State Fault Refusal

/-- The part after power-on with every line low and a store whose check fails: the loan table empty with every issue 0
(R1), the wait list empty (R26), no record and 384 free buffers (R79, R85), every bay EMPTY (R147), no twin (R149), the
channels free (R151), the links empty (R178), the defaults as working settings (R189), the notices of R184 and the
cause flags of R190. The lines and the store's content are DESIGN CHOICE (log entries 4 and 5). -/
def State.reset : State :=
  { links := List.replicate (Config.nodes + 1) Link.initial
    loans := List.replicate Config.slots { issue := 0, loan := none }
    waits := []
    arrival := 0
    records := []
    poolFree := Config.buffers
    poolWait := []
    bays := List.replicate Config.bays Bay.initial
    spinQueue := []
    channels := List.replicate Config.channels Channel.free
    twins := List.replicate Config.twins none
    settings := Settings.default
    notices := Notices.afterReset
    store := List.replicate Config.imageBytes 0xFF#8
    saving := none
    cause := { power := true, pin := false, shelf := false, defaults := true }
    scanDue := false
    pending := [] }

end Sys2Proof.Machine
end

