-- ==== Sys2Proof/Machine/Bytes.lean ====
section
/-! DEFINITION. Bytes on a link: big-endian fields, the CRC-16, and the receiver (09, Section 9.1). -/

namespace Sys2Proof.Machine

/-- Two bytes, high byte first (00_scope.md 4.1). -/
def be16 (n : Nat) : List Byte := [byte (n / 256), byte n]

/-- Four bytes, high byte first. -/
def be32 (n : Nat) : List Byte := [byte (n / 16777216), byte (n / 65536), byte (n / 256), byte n]

/-- The whole number that big-endian bytes hold. -/
def ofBytes (bs : List Byte) : Nat := bs.foldl (fun n b => n * 256 + b.toNat) 0

/-- One bit of the CRC of R169: polynomial 0x1021, most significant bit first. -/
def crcBit (crc : BitVec 16) : BitVec 16 :=
  if crc.msb then (crc <<< 1) ^^^ 0x1021#16 else crc <<< 1

/-- One byte of the CRC of R169, entered most significant bit first. -/
def crcByte (crc : BitVec 16) (b : Byte) : BitVec 16 :=
  crcBit (crcBit (crcBit (crcBit (crcBit (crcBit (crcBit (crcBit (crc ^^^ (b.zeroExtend 16 <<< 8)))))))))

/-- R169: the CRC-16 of a run of bytes, initial value 0xFFFF, neither reflected nor inverted. -/
def crc16 (bs : List Byte) : Nat := (bs.foldl crcByte 0xFFFF#16).toNat

/-- What one received byte makes of the receiver (R169): its new state, and the frame that arrives with the byte. -/
def receiveByte (r : Receiver) (b : Byte) : Receiver × Option Frame :=
  match r with
  | .hunting => if b = 0xA5#8 then (.inFrame [], none) else (.hunting, none)
  | .inFrame got =>
    let bytes := (b :: got).reverse
    let length := ofBytes (bytes.take 2)
    if bytes.length < 2 then (.inFrame (b :: got), none)
    else if length > Config.bodyMax then (.hunting, none)
    else if bytes.length < length + 6 then (.inFrame (b :: got), none)
    else if crc16 (bytes.take (length + 4)) = ofBytes (bytes.drop (length + 4)) then
      (.hunting, some { kind := ofBytes ((bytes.drop 2).take 1), tag := ofBytes ((bytes.drop 3).take 1),
                        body := (bytes.drop 4).take length })
    else (.hunting, none)

/-- A run of received bytes: the receiver after it, and the frames that arrived, in order. -/
def receiveBytes (r : Receiver) : List Byte → Receiver × List Frame
  | [] => (r, [])
  | b :: bs =>
    let (r', f) := receiveByte r b
    let (r'', fs) := receiveBytes r' bs
    (r'', f.toList ++ fs)

/-- A frame's bytes (Table 9-1). -/
def frameBytes (kind tag : Nat) (body : List Byte) : List Byte :=
  let inner := be16 body.length ++ [byte kind, byte tag] ++ body
  0xA5#8 :: (inner ++ be16 (crc16 inner))

end Sys2Proof.Machine
end

