-- ==== Sys2Proof/Machine/Operands.lean ====
section
/-! DEFINITION. The bodies of the frames the part takes: the codes of Table 9-4, the layouts of Sections 8.3, 9.6, 10.1,
10.2 and 10.3, the form checks of each kind's body, and the clamping of settings (10.1). -/

namespace Sys2Proof.Machine

/-! ### Kind codes (Table 9-3) -/

def kindBorrow : Nat := 0x10
def kindWithdraw : Nat := 0x11
def kindReturn : Nat := 0x12
def kindHold : Nat := 0x13
def kindRead : Nat := 0x14
def kindWrite : Nat := 0x15
def kindData : Nat := 0x16
def kindStream : Nat := 0x17
def kindCancel : Nat := 0x18
def kindQuery : Nat := 0x19
def kindSetBay : Nat := 0x40
def kindSetNode : Nat := 0x41
def kindSetShelf : Nat := 0x42
def kindCopy : Nat := 0x43
def kindHaltCopy : Nat := 0x44
def kindDropTwin : Nat := 0x45
def kindReleaseBay : Nat := 0x46
def kindRestoreBay : Nat := 0x47
def kindReclaim : Nat := 0x48
def kindReport : Nat := 0x49
def kindReadCause : Nat := 0x4A
def kindArm : Nat := 0x4B
def kindSave : Nat := 0x4C
def kindResetShelf : Nat := 0x4D

/-- The kinds taken on a link (Table 9-3): the supervisor's on link 0, the nodes' on links 1..16. -/
def kindTakenOn (link kind : Nat) : Bool :=
  if link = 0 then kindSetBay ≤ kind && kind ≤ kindResetShelf else kindBorrow ≤ kind && kind ≤ kindQuery

/-! ### Fields of a body -/

/-- The whole number in `width` bytes at body offset `off` (R179). -/
def field (body : List Byte) (off width : Nat) : Nat := ofBytes ((body.drop off).take width)

/-- The loan id at a body offset: slot, then issue (R179). -/
def loanIdAt (body : List Byte) (off : Nat) : LoanId := { slot := field body off 1, issue := field body (off + 1) 1 }

/-- Codes of Table 9-4, read. -/
def kindOfCode : Nat → Option LoanKind
  | 1 => some .view
  | 2 => some .keep
  | _ => none
def clsOfCode : Nat → Option Cls
  | 1 => some .rush
  | 2 => some .normal
  | 3 => some .bulk
  | _ => none
def boolOfCode : Nat → Option Bool
  | 0 => some false
  | 1 => some true
  | _ => none
def levelOfCode : Nat → Option Level
  | 1 => some .openShelf
  | 2 => some .crunch
  | 3 => some .lockdown
  | _ => none

/-! ### What a REJECT says (R174) -/

structure Reject where
  reason : RejectReason
  place  : Place
  offset : Nat
  deriving DecidableEq, Repr

def rejectTag : Reject := ⟨.badTag, .header, 4⟩
def rejectDup : Reject := ⟨.dupTag, .header, 4⟩
def rejectKind : Reject := ⟨.unknownKind, .header, 3⟩
def rejectTarget : Reject := ⟨.noTarget, .body, 0⟩
def rejectDisabled : Reject := ⟨.nodeDisabled, .body, 0⟩
def rejectField (off : Nat) : Reject := ⟨.badField, .body, off⟩
/-- BAD_LENGTH: the body's length when it is short of the layout, the layout's length when it is long. -/
def rejectLength (body : List Byte) (layout : Nat) : Reject := ⟨.badLength, .body, min body.length layout⟩

/-- The form of a body as a value or the first check that fails. -/
abbrev Form (α : Type) := Except Reject α

/-- A body at least as long as its layout; what stands beyond the layout is ignored (R174). -/
def atLeast (body : List Byte) (layout : Nat) : Form Unit :=
  if body.length < layout then .error (rejectLength body layout) else .ok ()

/-- A body exactly as long as its layout (READ, WRITE, STREAM, CANCEL). -/
def exactly (body : List Byte) (layout : Nat) : Form Unit :=
  if body.length = layout then .ok () else .error (rejectLength body layout)

/-- A field that holds a listed code, or BAD_FIELD with its offset. -/
def coded {α : Type} (off : Nat) (v : Option α) : Form α :=
  match v with
  | some a => .ok a
  | none => .error (rejectField off)

/-- A check on a field, or BAD_FIELD with its offset. -/
def demand (off : Nat) (c : Bool) : Form Unit := if c then .ok () else .error (rejectField off)

/-! ### Node bodies -/

/-- BORROW (Table 1-2, 9.6.1). -/
structure BorrowBody where
  bay         : Nat
  kind        : LoanKind
  cls         : Cls
  range       : Option Range
  waitAllowed : Bool
  deriving DecidableEq, Repr

/-- R7, from BAD_LENGTH on: the fields in body order, first being the failing field when first is above last. -/
def borrowForm (body : List Byte) : Form BorrowBody := do
  atLeast body 13
  let kind ← coded 1 (kindOfCode (field body 1 1))
  let cls ← coded 2 (clsOfCode (field body 2 1))
  let present ← coded 3 (boolOfCode (field body 3 1))
  demand 4 (!present || field body 4 4 ≤ field body 8 4)
  let wait ← coded 12 (boolOfCode (field body 12 1))
  return { bay := field body 0 1, kind, cls, waitAllowed := wait,
           range := if present then some ⟨field body 4 4, field body 8 4⟩ else none }

/-- Table 9-2: a BORROW with wait allowed yes in a body of 13 bytes or more needs two entries, any other one. -/
def borrowNeeds (body : List Byte) : Nat := if 13 ≤ body.length ∧ field body 12 1 = 1 then 2 else 1

/-- READ and WRITE (9.6.3). -/
structure BlocksBody where
  id    : LoanId
  first : Nat
  count : Nat
  deriving DecidableEq, Repr

/-- R64, from BAD_LENGTH on, for READ and WRITE. -/
def blocksForm (body : List Byte) : Form BlocksBody := do
  exactly body 7
  demand 6 (1 ≤ field body 6 1 && field body 6 1 ≤ 32)
  return { id := loanIdAt body 0, first := field body 2 4, count := field body 6 1 }

/-- STREAM (9.6.3). -/
structure StreamBody where
  id      : LoanId
  first   : Nat
  total   : Nat
  segSize : Nat
  deriving DecidableEq, Repr

/-- R64, from BAD_LENGTH on, for STREAM. -/
def streamForm (body : List Byte) : Form StreamBody := do
  exactly body 9
  demand 6 (1 ≤ field body 6 2)
  demand 8 (1 ≤ field body 8 1 && field body 8 1 ≤ 32)
  return { id := loanIdAt body 0, first := field body 2 4, total := field body 6 2, segSize := field body 8 1 }

/-- Bytes of a DATA body from a node (9.6.4): the block index, then the block. -/
def dataBodyBytes : Nat := Config.blockBytes + 2

/-! ### Supervisor bodies -/

/-- A value outside its range is clamped to the nearer end (10.1). -/
def clamp (lo hi n : Nat) : Nat := max lo (min hi n)

/-- SET BAY (Table 10-1): the bay, and the profile as taken (R180). -/
def setBayForm (body : List Byte) : Form (Nat × Profile) := do
  atLeast body 26
  let bay := field body 0 1
  demand 0 (bay < Config.bays)
  let enabled ← coded 1 (boolOfCode (field body 1 1))
  let permitted ← coded 2 (boolOfCode (field body 2 1))
  let spare := field body 9 1
  return (bay,
    { enabled, releasePermitted := permitted
      quantum := clamp 1 64 (field body 3 1)
      seekExponent := clamp 8 24 (field body 4 1)
      seekCap := clamp 0 64 (field body 5 1)
      holdMinimum := clamp 5 600 (field body 6 2)
      hotThreshold := clamp 0 64 (field body 8 1)
      spare := if spare < Config.bays && spare != bay then some spare else none
      hotFirst := field body 10 4
      hotLast := field body 14 4
      upkeepPeriod := field body 18 2
      upkeepLength := clamp 8 256 (field body 20 2)
      operationTimeout := clamp 10 3000 (field body 22 2)
      spinLimit := clamp 100 6000 (field body 24 2) })

/-- SET NODE (R181): the node, and the entry clamped to its ranges (the raising of the loan limit to the node's present
sum is the supervisor unit's). -/
def setNodeForm (body : List Byte) : Form (Nat × NodeEntry) := do
  atLeast body 8
  let node := field body 0 1
  demand 0 (1 ≤ node && node ≤ Config.nodes)
  let enabled ← coded 1 (boolOfCode (field body 1 1))
  let cap ← coded 2 (clsOfCode (field body 2 1))
  return (node, { enabled, classCap := cap, loanLimit := clamp 1 8 (field body 3 1)
                  holdBase := clamp 10 6000 (field body 4 2), dataGap := clamp 5 1000 (field body 6 2) })

/-- SET SHELF (R182): the level, and the spin group size clamped to 1..8. -/
def setShelfForm (body : List Byte) : Form (Level × Nat) := do
  atLeast body 2
  let level ← coded 0 (levelOfCode (field body 0 1))
  return (level, clamp 1 8 (field body 1 1))

/-- COPY (Table 8-4, R152): source, target, range. -/
structure CopyBody where
  source : Nat
  target : Nat
  first  : Nat
  last   : Nat
  deriving DecidableEq, Repr

def copyForm (body : List Byte) : Form CopyBody := do
  atLeast body 10
  let c : CopyBody := { source := field body 0 1, target := field body 1 1, first := field body 2 4,
                        last := field body 6 4 }
  demand 0 (c.source < Config.bays)
  demand 1 (c.target < Config.bays && c.target != c.source)
  demand 2 (c.first ≤ c.last)
  return c

/-- HALT COPY and DROP TWIN (R158): the twin number. -/
def twinForm (body : List Byte) : Form Nat := do
  atLeast body 1
  demand 0 (field body 0 1 < Config.twins)
  return field body 0 1

/-- RELEASE BAY and RESTORE BAY (R134, R140): the bay number. -/
def bayForm (body : List Byte) : Form Nat := do
  atLeast body 1
  demand 0 (field body 0 1 < Config.bays)
  return field body 0 1

/-- RECLAIM (R56): the loan id. -/
def reclaimForm (body : List Byte) : Form LoanId := do
  atLeast body 2
  return loanIdAt body 0

/-- What a REPORT asks for (R183). -/
inductive Selector where
  | bay (b : Nat)
  | loan (slot : Nat)
  | node (n : Nat)
  | pool
  | twins
  | shelf
  deriving DecidableEq, Repr

def reportForm (body : List Byte) : Form Selector := do
  atLeast body 2
  let n := field body 1 1
  match field body 0 1 with
  | 1 => demand 1 (n < Config.bays); return .bay n
  | 2 => demand 1 (n < Config.slots); return .loan n
  | 3 => demand 1 (1 ≤ n && n ≤ Config.nodes); return .node n
  | 4 => return .pool
  | 5 => return .twins
  | 6 => return .shelf
  | _ => .error (rejectField 0)

/-- ARM (R185): arm, then one mark for each notice kind in the order of Table 10-2. -/
structure ArmBody where
  arm   : Bool
  cause : Bool
  bay   : Bool
  copy  : Bool
  worn  : Bool
  weak  : Bool
  deriving DecidableEq, Repr

def armForm (body : List Byte) : Form ArmBody := do
  atLeast body 6
  let arm ← coded 0 (boolOfCode (field body 0 1))
  let cause ← coded 1 (boolOfCode (field body 1 1))
  let bay ← coded 2 (boolOfCode (field body 2 1))
  let copy ← coded 3 (boolOfCode (field body 3 1))
  let worn ← coded 4 (boolOfCode (field body 4 1))
  let weak ← coded 5 (boolOfCode (field body 5 1))
  return { arm, cause, bay, copy, worn, weak }

/-- RESET SHELF (R188): reload yes only for a body whose first byte is the code of yes. -/
def reloadOf (body : List Byte) : Bool := 1 ≤ body.length && field body 0 1 == 1

end Sys2Proof.Machine
end

