-- ==== Sys2Proof/Machine/Layouts.lean ====
section
/-! DEFINITION. The byte layouts of what the part sends (09, Sections 9.6.2 to 9.6.9) and of the settings image (10.4).
A record whose body Chapters 9 and 10 do not lay out byte by byte has no bytes here (log entry 9). -/

namespace Sys2Proof.Machine

/-! ### Codes, written (Table 9-4) -/

def LoanKind.code : LoanKind → Nat
  | .view => 1
  | .keep => 2
def Cls.code : Cls → Nat
  | .rush => 1
  | .normal => 2
  | .bulk => 3
def LoanState.code : LoanState → Nat
  | .active => 1
  | .returning => 2
  | .ending => 3
  | .ended => 4
def EndReason.code : EndReason → Nat
  | .returned => 1
  | .holdExpired => 2
  | .reclaimed => 3
  | .bayFault => 4
  | .bayReleased => 5
  | .twinDropped => 6
  | .linkLost => 7
def Status.code : Status → Nat
  | .ok => 0
  | .mediaError => 1
  | .cancelled => 2
  | .reclaimed => 3
  | .bayFault => 4
  | .bayReleased => 5
  | .twinDropped => 6
  | .noLoan => 7
  | .ended => 8
  | .readOnly => 9
  | .outside => 10
  | .limit => 11
  | .dataLate => 12
  | .dataOrder => 13
  | .linkLost => 0  -- never placed (R84)
def RejectReason.code : RejectReason → Nat
  | .unknownKind => 1
  | .badLength => 2
  | .badField => 3
  | .badTag => 4
  | .dupTag => 5
  | .noTarget => 6
  | .nodeDisabled => 7
def Place.code : Place → Nat
  | .body => 0
  | .header => 1
def NoticeKind.code : NoticeKind → Nat
  | .cause => 1
  | .bay => 2
  | .copy => 3
  | .worn => 4
  | .weak => 5
def NoticeStatus.code : NoticeStatus → Nat
  | .none => 0
  | .started => 1
  | .done => 2
  | .halted => 3
  | .aborted => 4
def Level.code : Level → Nat
  | .openShelf => 1
  | .crunch => 2
  | .lockdown => 3
def LoanNotice.code : LoanNotice → Nat
  | .loanEnded => 1
  | .loanMoved => 2
def NodeReason.code : NodeReason → Nat
  | .noBay => 1
  | .bayReleasing => 2
  | .twinTarget => 3
  | .outside => 4
  | .nodeLimit => 5
  | .waitFull => 6
  | .spin => 7
  | .masked => 8
  | .conflict => 9
  | .copying => 10
  | .order => 11
  | .tableFull => 12
  | .withdrawn => 13
def ReturnStatus.code : ReturnStatus → Nat
  | .ok => 0
  | .ended => 1
  | .noLoan => 2
def Origin.code : Origin → Nat
  | .presence => 1
  | .reset => 2
def SupReason.code : SupReason → Nat
  | .noLoan => 1
  | .bayState => 2
  | .noDisk => 3
  | .notReady => 4
  | .targetBusy => 5
  | .sourceBusy => 6
  | .outside => 7
  | .keepHeld => 8
  | .noChannel => 9
  | .noTwin => 10
  | .noRecord => 11
  | .notCopying => 12
  | .busy => 13
def TakenResult.code : TakenResult → Nat
  | .reclaimed => 1
  | .unchanged => 2
  | .halting => 3
  | .dropped => 4
  | .retiring => 5
def BayState.code : BayState → Nat
  | .empty => 1
  | .spinWait => 2
  | .spinning => 3
  | .ready => 4
  | .draining => 5
  | .stopping => 6
  | .released => 7
  | .faulted => 8
def FaultCause.code : FaultCause → Nat
  | .noSpin => 1
  | .badIdentify => 2
  | .noAnswer => 3
  | .pulled => 4
def OpKind.code : OpKind → Nat
  | .spinUp => 1
  | .identify => 2
  | .readBlock => 3
  | .writeBlock => 4
  | .verifyRun => 5
  | .spinDown => 6
def TwinState.code : TwinState → Nat
  | .copying => 1
  | .live => 2
  | .stale => 3
  | .orphan => 4
def Phase.code : Phase → Nat
  | .none => 0
  | .queued => 1
  | .chosen => 2
  | .reading => 3
  | .pending => 4
  | .writing => 5
def CopyEnd.code : CopyEnd → Nat
  | .halted => 3
  | .aborted => 4
/-- A code whose absence is 0x00: end reason, loan notice, fault cause, disk operation, copy end status (Table 9-4). -/
def optCode {α : Type} (code : α → Nat) (v : Option α) : Nat := (v.map code).getD 0
def boolCode (b : Bool) : Nat := if b then 1 else 0

/-- An optional bay or twin is 0xFF when absent, an optional reason 0x00 (R179). -/
def optNumber (n : Option Nat) : Nat := n.getD 0xFF
def optReason (r : Option EndReason) : Nat := optCode EndReason.code r

def loanIdBytes (id : LoanId) : List Byte := [byte id.slot, byte id.issue]

/-- Range present, first, last; 0 when absent (9.6.2, 9.6.7). -/
def rangeBytes (r : Option Range) : List Byte :=
  match r with
  | some r => [byte 1] ++ be32 r.first ++ be32 r.last
  | none => [byte 0] ++ be32 0 ++ be32 0

/-- An entry of LOANS (9.6.7), 24 bytes. -/
def loansEntryBytes (e : LoansEntry) : List Byte :=
  loanIdBytes e.id ++ [byte e.askedBay, byte e.placedBay, byte (optNumber e.viaTwin), byte e.kind.code, byte e.cls.code]
    ++ rangeBytes e.range ++ [byte e.state.code, byte (optReason e.endReason)] ++ be16 e.holdLimit ++ be16 e.idle
    ++ [byte e.commands, byte (optCode LoanNotice.code e.notice)]

/-- The kind code of a record (Table 9-3). -/
def Record.kind : Record → Nat
  | .granted .. => 0x20
  | .queued .. => 0x21
  | .refused .. => 0x22
  | .returned .. => 0x23
  | .held .. => 0x24
  | .data .. => 0x25
  | .done .. => 0x26
  | .streamEnd .. => 0x27
  | .loans .. => 0x28
  | .loanEnded .. => 0x29
  | .loanMoved .. => 0x2A
  | .restarted .. => 0x2B
  | .reject .. => 0x2F
  | .takenSetBay .. => 0x60
  | .takenSetNode .. => 0x60
  | .takenSetShelf .. => 0x60
  | .takenCopy .. => 0x60
  | .takenTwin .. => 0x60
  | .takenBay .. => 0x60
  | .takenReclaim .. => 0x60
  | .takenArm .. => 0x60
  | .refusedSup .. => 0x61
  | .refusedBay .. => 0x61
  | .report .. => 0x62
  | .cause .. => 0x63
  | .saved .. => 0x64
  | .notice .. => 0x65

/-- The body of a record that Section 9.6 lays out. -/
def Record.body : Record → Option (List Byte)
  | .granted id placed kind cls range limit =>
    some (loanIdBytes id ++ [byte placed, byte kind.code, byte cls.code] ++ rangeBytes range ++ be16 limit)
  | .data block index bytes => some (be32 block ++ be16 index ++ bytes)
  | .done status blocks => some [byte status.code, byte blocks]
  | .streamEnd status blocks => some ([byte status.code] ++ be16 blocks)
  | .loans es => some ([byte es.length] ++ es.flatMap loansEntryBytes)
  | .loanEnded id reason => some (loanIdBytes id ++ [byte (optReason reason)])
  | .loanMoved id bay => some (loanIdBytes id ++ [byte bay])
  | .notice kind count subject status => some [byte kind.code, byte count, byte subject, byte status.code]
  | .reject reason place offset kind => some ([byte reason.code, byte place.code] ++ be16 offset ++ [byte kind])
  | .queued .. => none
  | .refused .. => none
  | .returned .. => none
  | .held .. => none
  | .restarted .. => none
  | .takenSetBay .. => none
  | .takenSetNode .. => none
  | .takenSetShelf .. => none
  | .takenCopy .. => none
  | .takenTwin .. => none
  | .takenBay .. => none
  | .takenReclaim .. => none
  | .takenArm .. => none
  | .refusedSup .. => none
  | .refusedBay .. => none
  | .report .. => none
  | .cause .. => none
  | .saved .. => none

/-- The frame in which a record is sent (R173), where Section 9.6 lays its body out. -/
def OutRecord.frame (o : OutRecord) : Option (List Byte) := o.record.body.map (frameBytes o.record.kind o.tag)

/-! ### The settings image (10.4) -/

/-- A profile as body bytes 1..25 of SET BAY. -/
def profileBytes (p : Profile) : List Byte :=
  [byte (boolCode p.enabled), byte (boolCode p.releasePermitted), byte p.quantum, byte p.seekExponent, byte p.seekCap]
    ++ be16 p.holdMinimum ++ [byte p.hotThreshold, byte (optNumber p.spare)] ++ be32 p.hotFirst ++ be32 p.hotLast
    ++ be16 p.upkeepPeriod ++ be16 p.upkeepLength ++ be16 p.operationTimeout ++ be16 p.spinLimit

/-- A node entry as body bytes 1..7 of SET NODE. -/
def nodeEntryBytes (e : NodeEntry) : List Byte :=
  [byte (boolCode e.enabled), byte e.classCap.code, byte e.loanLimit] ++ be16 e.holdBase ++ be16 e.dataGap

/-- The image but for its check word: 24 profiles, 16 node entries, level, spin group size. -/
def settingsBytes (t : Settings) : List Byte :=
  t.profiles.flatMap profileBytes ++ t.nodeTable.flatMap nodeEntryBytes ++ [byte t.level.code, byte t.spinGroup]

/-- The whole image, with the check word high byte first. -/
def imageOf (t : Settings) : List Byte := settingsBytes t ++ be16 (crc16 (settingsBytes t))

/-- A code of the image: as listed, or the free value of log entry 14. -/
def imageBool (b : Nat) : Bool := (boolOfCode b).getD (Config.unlistedCode (byte b) % 2 == 1)
def imageCls (b : Nat) : Cls :=
  (clsOfCode b).getD ((clsOfCode (Config.unlistedCode (byte b) % 3 + 1)).getD .normal)
def imageLevel (b : Nat) : Level :=
  (levelOfCode b).getD ((levelOfCode (Config.unlistedCode (byte b) % 3 + 1)).getD .openShelf)

/-- A profile read from 25 bytes of the image, without the clamping of SET (R189); a spare above 23 is none. -/
def profileOf (b : List Byte) : Profile :=
  { enabled := imageBool (field b 0 1), releasePermitted := imageBool (field b 1 1), quantum := field b 2 1
    seekExponent := field b 3 1, seekCap := field b 4 1, holdMinimum := field b 5 2, hotThreshold := field b 7 1
    spare := if field b 8 1 < Config.bays then some (field b 8 1) else none
    hotFirst := field b 9 4, hotLast := field b 13 4, upkeepPeriod := field b 17 2, upkeepLength := field b 19 2
    operationTimeout := field b 21 2, spinLimit := field b 23 2 }

/-- A node entry read from 7 bytes of the image. -/
def nodeEntryOf (b : List Byte) : NodeEntry :=
  { enabled := imageBool (field b 0 1), classCap := imageCls (field b 1 1), loanLimit := field b 2 1
    holdBase := field b 3 2, dataGap := field b 5 2 }

/-- The settings that an image holds, in its order. -/
def settingsOf (image : List Byte) : Settings :=
  { profiles := (List.range Config.bays).map fun i => profileOf ((image.drop (25 * i)).take 25)
    nodeTable := (List.range Config.nodes).map fun i => nodeEntryOf ((image.drop (600 + 7 * i)).take 7)
    level := imageLevel (field image 712 1)
    spinGroup := field image 713 1 }

/-- R189: the check passes when the CRC-16 over all but the check word equals the check word. -/
def imageChecks (image : List Byte) : Bool := crc16 (image.take 714) == field image 714 2

/-- R189: the settings a load gives, and whether the check failed. -/
def loadImage (image : List Byte) : Settings × Bool :=
  if imageChecks image then (settingsOf image, false) else (Settings.default, true)

end Sys2Proof.Machine
end

