-- ==== Sys2Proof/WellFormed.lean ====
section
/-! DEFINITION. Which commands the part can be given: their operands name links, nodes, bays, slots and channels it has,
and answers a disk can give. -/

namespace Sys2Proof

/-- Link 0 is the supervisor link, links 1..16 the node links (00_scope.md 4.2). -/
def isLink (l : Nat) : Bool := l ≤ Config.nodes
def isNode (n : Nat) : Bool := 1 ≤ n && n ≤ Config.nodes
def isBay (b : Nat) : Bool := b < Config.bays
def isSlot (k : Nat) : Bool := k < Config.slots
def isChannel (c : Nat) : Bool := c < Config.channels
/-- A tag that a command can carry (Table 4-1). -/
def isTag (t : Nat) : Bool := 1 ≤ t && t ≤ 255
/-- A capacity that IDENTIFY can answer (Table 7-5). -/
def isCapacity (n : Nat) : Bool := n ≤ 4294967295

/-- An OK answer to a READ BLOCK brings the 4096 bytes of the block. -/
def ReadOutcome.wellFormed : ReadOutcome → Bool
  | .ok data => data.length == Config.blockBytes
  | .mediaError => true

def Instr.wellFormed : Instr → Bool
  | .borrow n => isNode n
  | .withdraw n => isNode n
  | .returnLoan n => isNode n
  | .hold n => isNode n
  | .query n => isNode n
  | .read n => isNode n
  | .write n => isNode n
  | .data n => isNode n
  | .stream n => isNode n
  | .cancel n => isNode n
  | .unknownKindFrame l => isLink l
  | .setBay => true
  | .setNode => true
  | .setShelf => true
  | .copy => true
  | .haltCopy => true
  | .dropTwin => true
  | .releaseBay => true
  | .restoreBay => true
  | .reclaim => true
  | .report => true
  | .readCause => true
  | .arm => true
  | .save => true
  | .resetShelf => true
  | .powerOn => true
  | .pinReset => true
  | .frameArrive l _ => isLink l
  | .recordSent l _ => isLink l
  | .farReadyRise l => isLink l
  | .nodePresenceFall n => isNode n
  | .nodePresenceRise n _ => isNode n
  | .supervisorPresenceFall => true
  | .supervisorPresenceRise _ => true
  | .idleClockExpiry k => isSlot k
  | .dataGapExpiry n t => isNode n && isTag t
  | .upkeepTimerExpiry b => isBay b
  | .spinUpTimeout b => isBay b
  | .identifyTimeout b => isBay b
  | .operationNoAnswer b => isBay b
  | .spinDownTimeout b => isBay b
  | .spinUpReady b _ => isBay b
  | .identifyAnswer b _ c => isBay b && isCapacity c
  | .readBlockAnswer b _ o => isBay b && o.wellFormed
  | .writeBlockAnswer b _ _ => isBay b
  | .verifyRunAnswer b _ _ => isBay b
  | .spinDownDone b _ => isBay b
  | .bayPresenceRise b => isBay b
  | .bayPresenceFall b => isBay b
  | .releaseButtonPress b => isBay b
  | .saveComplete => true
  | .dispatchPoint b => isBay b
  | .poolServe => true
  | .dataPlaceWaiting n => isNode n
  | .loanNoticePlace n => isNode n
  | .noticePlace => true
  | .spinAdmit => true
  | .segmentBoundary n t => isNode n && isTag t
  | .heldMoveCarryOut k => isSlot k
  | .drainComplete b => isBay b
  | .copyEnd c => isChannel c
  | .tick => true
  | .overlongFrameDiscard l len => isLink l && (Config.bodyMax < len && len ≤ 65535)

end Sys2Proof
end

