-- ==== Sys2Proof/Machine/Flags.lean ====
section
/-! DEFINITION. Reading the state: its parts by number, the output lines, and every flag and count that the rules compute
from the state (counts of loans, masks, conflict, pressure, eligibility, what claims a free outbound entry). -/

namespace Sys2Proof.Machine

/-! ### Parts by number -/

def State.link (s : State) (l : Nat) : Link := s.links.getD l Link.initial
def State.slot (s : State) (k : Nat) : Slot := s.loans.getD k { issue := 0, loan := none }
def State.loan (s : State) (k : Nat) : Option Loan := (s.slot k).loan
def State.bay (s : State) (b : Nat) : Bay := s.bays.getD b Bay.initial
def State.channel (s : State) (c : Nat) : Channel := s.channels.getD c Channel.free
def State.twin (s : State) (t : Nat) : Option Twin := s.twins.getD t none
def State.profile (s : State) (b : Nat) : Profile := s.settings.profiles.getD b Profile.default
/-- Node n's entry is the n-th of the node table (10.4). -/
def State.nodeEntry (s : State) (n : Nat) : NodeEntry := s.settings.nodeTable.getD (n - 1) NodeEntry.default
def Command.ref (r : Command) : CommandRef := { node := r.node, tag := r.tag }
/-- The command record known by node and tag (4.1). -/
def State.record (s : State) (ref : CommandRef) : Option Command := s.records.find? fun r => r.ref == ref

/-! ### Lines -/

/-- R170: the part ready line. -/
def Link.partReady (l : Link) : Bool := l.presence && l.inbound.length < Config.inbound
/-- R121: the safe-to-pull indicator. -/
def Bay.indicator (b : Bay) : Bool := b.state == .released || b.state == .faulted
/-- R172: the entries of an outbound queue that are free and unreserved. -/
def Link.free (l : Link) : Nat := Config.outbound - (l.placed.length + l.reserved)
/-- A record without a reservation can be placed: the link is present and an entry is free and unreserved. -/
def State.hasRoom (s : State) (l : Nat) : Bool := (s.link l).presence && 0 < (s.link l).free

/-! ### Loans -/

/-- R3: a loan's source bay. -/
def State.sourceBay (s : State) (l : Loan) : Nat :=
  match l.viaTwin with
  | none => l.placedBay
  | some t => match s.twin t with
    | some w => w.source
    | none => l.placedBay

/-- Two ranges overlap; an absent range overlaps every range (R5). -/
def overlaps (a b : Option Range) : Bool :=
  match a, b with
  | some a, some b => a.first ≤ b.last && b.first ≤ a.last
  | _, _ => true

def eitherKeep (a b : LoanKind) : Bool := a == .keep || b == .keep

/-- R5: a request for `bay`, `kind`, `range` conflicts with a loan. -/
def State.conflictsLoan (s : State) (bay : Nat) (kind : LoanKind) (range : Option Range) (l : Loan) : Bool :=
  s.sourceBay l == bay && overlaps range l.range && eitherKeep kind l.kind

/-- R5: the request conflicts with a waiting request. -/
def conflictsEntry (bay : Nat) (kind : LoanKind) (range : Option Range) (e : WaitEntry) : Bool :=
  e.bay == bay && overlaps range e.range && eitherKeep kind e.kind

/-- R5: a KEEP request conflicts with a COPYING twin record. -/
def State.conflictsCopying (s : State) (bay : Nat) (kind : LoanKind) (range : Option Range) : Bool :=
  kind == .keep && s.twins.any fun t => match t with
    | some w => w.state == .copying && w.source == bay && overlaps range (some ⟨w.first, w.last⟩)
    | none => false

/-- R5, R10: the request conflicts with some loan in the table, in any state. -/
def State.conflictsTable (s : State) (bay : Nat) (kind : LoanKind) (range : Option Range) : Bool :=
  s.loans.any fun k => match k.loan with
    | some l => s.conflictsLoan bay kind range l
    | none => false

/-- R50: the pressure on a loan. -/
def State.pressure (s : State) (l : Loan) : Nat :=
  s.waits.countP fun e => !e.masked && s.conflictsLoan e.bay e.kind e.range l

/-- R52: the hold limit from H, M and P. -/
def holdLimitOf (h m p : Nat) : Nat := max (min m h) (4 * h / (4 + p))

/-- R52 with the present H, M and P of a loan. -/
def State.holdLimit (s : State) (l : Loan) : Nat :=
  holdLimitOf l.holdBase (s.profile (s.sourceBay l)).holdMinimum (s.pressure l)

/-- R42, Table 2-2: the level masks the class. -/
def masks : Level → Cls → Bool
  | .openShelf, _ => false
  | .crunch, .bulk => true
  | .crunch, _ => false
  | .lockdown, .rush => false
  | .lockdown, _ => true

/-- Classes from highest to lowest: RUSH, NORMAL, BULK. -/
def Cls.rank : Cls → Nat
  | .rush => 0
  | .normal => 1
  | .bulk => 2

/-- R4, R30: the loans, the wait entries and the command records of a node. -/
def State.loanCount (s : State) (n : Nat) : Nat :=
  s.loans.countP fun k => match k.loan with
    | some l => l.borrower == n
    | none => false
def State.waitCount (s : State) (n : Nat) : Nat := s.waits.countP fun e => e.node == n
def State.recordCount (s : State) (n : Nat) : Nat := s.records.countP fun r => r.node == n

/-- R2: the loan that a request from node `n` names, or with `n = none` a request from the supervisor link. -/
def State.matchLoan (s : State) (n : Option Nat) (id : LoanId) : Option Loan :=
  match s.loan id.slot with
  | none => none
  | some l =>
    if (s.slot id.slot).issue ≠ id.issue then none
    else match n with
      | none => some l
      | some n => if l.borrower = n ∧ l.endReason ≠ some .linkLost then some l else none

/-- R7: a tag is pending for a node while a wait entry, a command record or a return tag carries it. -/
def State.tagPending (s : State) (n t : Nat) : Bool :=
  s.waits.any (fun e => e.node == n && e.tag == t) ||
  s.records.any (fun r => r.node == n && r.tag == t) ||
  s.loans.any fun k => match k.loan with
    | some l => l.borrower == n && l.returnTag == some t
    | none => false

/-- The lowest-numbered free slot (R1). -/
def State.freeSlotNumber (s : State) : Option Nat := s.loans.findIdx? fun k => k.loan.isNone

/-- A record whose loan ended LINK_LOST: its replies and DATA are not placed (R16, R84). -/
def State.lost (s : State) (r : Command) : Bool :=
  match s.loan r.loan.slot with
  | some l => l.endReason == some .linkLost
  | none => false

/-- A command of the loan in slot `k` is in POOL_WAIT or IN_SERVICE (R20, R21). -/
def State.workOnBay (s : State) (k : Nat) : Bool :=
  s.records.any fun r => r.loan.slot == k && (r.state == .poolWait || r.state == .inService)

/-- R21: the held move of the loan in slot `k` is due: no command of the loan is in POOL_WAIT or IN_SERVICE. -/
def State.moveDue (s : State) (k : Nat) : Bool :=
  match s.loan k with
  | some l => l.move.isSome && !s.workOnBay k
  | none => false

/-- A loan is placed on a bay while it is ACTIVE and its placed bay names it (R122). -/
def Loan.placedOn (l : Loan) (b : Nat) : Bool := l.state == .active && l.placedBay == b
def State.anyPlacedOn (s : State) (b : Nat) : Bool :=
  s.loans.any fun k => match k.loan with
    | some l => l.placedOn b
    | none => false

/-! ### Twins -/

/-- Some record, in any state, has the bay as its target (R9). -/
def State.isTwinTarget (s : State) (b : Nat) : Bool :=
  s.twins.any fun t => match t with
    | some w => w.target == b
    | none => false
def State.isTwinSource (s : State) (b : Nat) : Bool :=
  s.twins.any fun t => match t with
    | some w => w.source == b
    | none => false

/-- The record that names the bay as source or as target (R150). -/
def State.twinNaming (s : State) (b : Nat) : Option Nat :=
  s.twins.findIdx? fun t => match t with
    | some w => w.source == b || w.target == b
    | none => false

/-- The loans that name a twin record (8.1). -/
def State.loansVia (s : State) (t : Nat) : Nat :=
  s.loans.countP fun k => match k.loan with
    | some l => l.viaTwin == some t
    | none => false

/-- R11: the VIEW loans, in every state, whose placed bay is `b`. -/
def State.viewsPlacedOn (s : State) (b : Nat) : Nat :=
  s.loans.countP fun k => match k.loan with
    | some l => l.kind == .view && l.placedBay == b
    | none => false

/-! ### Bays -/

/-- R128: the bays in SPINNING. -/
def State.spinningCount (s : State) : Nat := s.bays.countP fun b => b.state == .spinning

/-- Table 6-1: the queued count of a bay. -/
def Bay.queuedCount (b : Bay) : Nat := (b.ring.map fun m => m.queued.length).sum

/-- States that a bay's waiting requests survive (R34, R38). -/
def BayState.awaitable (st : BayState) : Bool := st == .spinWait || st == .spinning || st == .ready

/-! ### Notices -/

def Notices.get (ns : Notices) : NoticeKind → Notice
  | .cause => ns.cause
  | .bay => ns.bay
  | .copy => ns.copy
  | .worn => ns.worn
  | .weak => ns.weak
def Notices.set (ns : Notices) (k : NoticeKind) (n : Notice) : Notices :=
  match k with
  | .cause => { ns with cause := n }
  | .bay => { ns with bay := n }
  | .copy => { ns with copy := n }
  | .worn => { ns with worn := n }
  | .weak => { ns with weak := n }

/-- R185: a kind is eligible while it is pending and armed. -/
def Notice.eligible (n : Notice) : Bool := n.pending && n.armed

/-- R185: the eligible kind of lowest code. -/
def Notices.first (ns : Notices) : Option NoticeKind :=
  [NoticeKind.cause, .bay, .copy, .worn, .weak].find? fun k => (ns.get k).eligible

/-! ### Claims on a free outbound entry -/

/-- R18, R19: the loan's pending notice may be placed: LOAN ENDED, or LOAN MOVED while the loan is ACTIVE. -/
def Loan.noticeDue (l : Loan) : Bool :=
  match l.notice with
  | some .loanEnded => true
  | some .loanMoved => l.state == .active
  | none => false

/-- R18: a loan notice of the node waits for an entry. -/
def State.loanNoticeWaits (s : State) (n : Nat) : Bool :=
  s.loans.any fun k => match k.loan with
    | some l => l.borrower == n && l.noticeDue
    | none => false

/-- R172, R185: something has a claim on a free entry of the link ahead of its head inbound frame. -/
def State.claimsAhead (s : State) (l : Nat) : Bool :=
  if l = 0 then s.notices.first.isSome
  else !(s.link l).waitingData.isEmpty || s.loanNoticeWaits l

/-- R171: the entries that the head frame needs can be reserved. -/
def State.canReserve (s : State) (l needs : Nat) : Bool :=
  needs == 0 || (needs ≤ (s.link l).free && !s.claimsAhead l)

end Sys2Proof.Machine
end

