-- ==== Sys2Proof/Machine/Ops.lean ====
section
/-! DEFINITION. The shared operations, part 1: changing one part of the state, the outbound queues, notices, buffers,
rings, the ends of command records and of loans, and the freeing of slots (01, 04, 09). -/

namespace Sys2Proof.Machine

/-! ### Changing one part of the state -/

def State.setLink (s : State) (l : Nat) (x : Link) : State := { s with links := s.links.set l x }
def State.setSlot (s : State) (k : Nat) (x : Slot) : State := { s with loans := s.loans.set k x }
def State.setBay (s : State) (b : Nat) (x : Bay) : State := { s with bays := s.bays.set b x }
def State.setChannel (s : State) (c : Nat) (x : Channel) : State := { s with channels := s.channels.set c x }
def State.setTwin (s : State) (t : Nat) (x : Option Twin) : State := { s with twins := s.twins.set t x }
def State.setLoan (s : State) (k : Nat) (l : Loan) : State := s.setSlot k { s.slot k with loan := some l }
def State.modBay (s : State) (b : Nat) (f : Bay → Bay) : State := s.setBay b (f (s.bay b))
def State.modLink (s : State) (l : Nat) (f : Link → Link) : State := s.setLink l (f (s.link l))
def State.modChannel (s : State) (c : Nat) (f : Channel → Channel) : State := s.setChannel c (f (s.channel c))

/-- The first element that meets `p` is changed by `f`. -/
def modifyFirst {α : Type} (p : α → Bool) (f : α → α) : List α → List α
  | [] => []
  | a :: as => if p a then f a :: as else a :: modifyFirst p f as

/-- Change one command record. -/
def State.modRecord (s : State) (ref : CommandRef) (f : Command → Command) : State :=
  { s with records := modifyFirst (fun r => r.ref == ref) f s.records }

/-- A grant scan is owed at the end of the handling (R33). -/
def State.oweScan (s : State) : State := { s with scanDue := true }

/-- Do `f` for each slot of the loan table, lowest first. -/
def State.eachSlot (s : State) (f : Nat → State → State) : State :=
  (List.range Config.slots).foldl (fun s k => f k s) s

/-! ### Outbound queues (R172, R173) -/

/-- R173: with no record being sent, the link tests the far ready line (log entry 7); when it is high, the sending of the
first placed record begins. -/
def Link.beginSending (l : Link) : Link := { l with sending := l.sending || (!l.placed.isEmpty && l.farReady) }

/-- Nothing is known of the far ready line of link `l` at its next test: a free value (log entry 7). -/
def Link.forgetLine (l : Nat) (x : Link) : Link :=
  { x with farReady := Config.farReadyLine l x.lineReads, lineReads := x.lineReads + 1 }

/-- Place a record that has no reservation into a free, unreserved entry. -/
def place (l : Nat) (o : OutRecord) (s : State) : State :=
  if s.hasRoom l then s.modLink l fun x => { x with placed := x.placed ++ [o] }.beginSending else s

/-- Place a reply into a reservation of the link. When presence is low, or the reservation was dropped with the queue
(R175, R177), the decision stands without a reply (log entry 20). -/
def placeReserved (l : Nat) (o : OutRecord) (s : State) : State :=
  if (s.link l).presence ∧ 0 < (s.link l).reserved then
    s.modLink l fun x => { x with placed := x.placed ++ [o], reserved := x.reserved - 1 }.beginSending
  else s

/-- A reservation is released unused (R172). -/
def releaseReserved (l n : Nat) (s : State) : State := s.modLink l fun x => { x with reserved := x.reserved - n }

/-- Place a reply carrying the tag of the frame it answers (R173). -/
def reply (l : Nat) (f : Frame) (r : Record) (s : State) : State := placeReserved l { tag := f.tag, record := r } s

/-- R174. -/
def reject (l : Nat) (f : Frame) (r : Reject) (s : State) : State :=
  reply l f (.reject r.reason r.place r.offset f.kind) s

/-- R170, R171: take the head frame of link `l` if it is of kind `kind` and its needs can be met, reserving what it
needs. Behind a WRITE held for buffers nothing is taken (R66). -/
def takeHead (l kind : Nat) (needs : List Byte → Nat) (s : State) : Option (Frame × State) :=
  match (s.link l).inbound with
  | [] => none
  | f :: rest =>
    if f.kind = kind ∧ (s.link l).presence ∧ !(s.link l).heldWrite ∧ s.canReserve l (needs f.body) then
      some (f, s.modLink l fun x => { x with inbound := rest, reserved := x.reserved + needs f.body })
    else none

/-! ### Notices to the supervisor (R184) -/

def occur (k : NoticeKind) (subject : Nat) (status : NoticeStatus) (s : State) : State :=
  let n := s.notices.get k
  let n' := { n with pending := true, count := min 255 (n.count + 1), subject := subject,
                     status := if k = .copy then status else n.status }
  { s with notices := s.notices.set k n' }

/-- R121: a bay changes state, which raises the BAY notice. -/
def setBayState (b : Nat) (st : BayState) (s : State) : State :=
  occur .bay b .none (s.modBay b fun x => { x with state := st })

/-! ### Buffers (R79) -/

/-- A command record returns `n` of its buffers to the pool. -/
def giveBack (ref : CommandRef) (n : Nat) (s : State) : State :=
  match s.record ref with
  | none => s
  | some r =>
    let n := min n r.held
    { s.modRecord ref (fun r => { r with held := r.held - n }) with poolFree := s.poolFree + n }

/-- The pool lends `n` buffers to a command record; what it lends is never more than the free count (R79, R81). -/
def lend (ref : CommandRef) (n : Nat) (s : State) : State :=
  match s.record ref with
  | none => s
  | some _ =>
    let n := min n s.poolFree
    { s.modRecord ref (fun r => { r with held := r.held + n }) with poolFree := s.poolFree - n }

/-- The pool lends `n` buffers to a busy copy channel, and a channel returns all of its own. -/
def lendChannel (c n : Nat) (s : State) : State :=
  if c < s.channels.length ∧ (s.channel c).busy then
    let n := min n s.poolFree
    { s.modChannel c (fun x => { x with held := x.held + n }) with poolFree := s.poolFree - n }
  else s
def giveBackChannel (c : Nat) (s : State) : State :=
  { s.modChannel c (fun x => { x with held := 0, filled := [] }) with poolFree := s.poolFree + (s.channel c).held }

/-- R81: the pool gives at once when nothing waits and the free count covers the count asked. -/
def State.poolGives (s : State) (n : Nat) : Bool := s.poolWait.isEmpty && n ≤ s.poolFree

/-! ### Freeing twin records, slots and command records -/

/-- R149: a retiring record outside COPYING is freed when no loan names it. -/
def freeTwinIfUnnamed (t : Nat) (s : State) : State :=
  match s.twin t with
  | some w => if w.retiring ∧ w.state ≠ .copying ∧ s.loansVia t = 0 then (s.setTwin t none).oweScan else s
  | none => s

/-- R1, R4, R149: free a slot, which keeps its issue number. -/
def freeSlot (k : Nat) (s : State) : State :=
  match s.loan k with
  | none => s
  | some l =>
    let s := (s.setSlot k { s.slot k with loan := none }).oweScan
    match l.viaTwin with
    | some t => freeTwinIfUnnamed t s
    | none => s

/-- R18, R19: place the pending notice of the loan in slot `k` into a free entry. -/
def placeLoanNotice (k : Nat) (s : State) : State :=
  match s.loan k with
  | none => s
  | some l =>
    let id : LoanId := { slot := k, issue := (s.slot k).issue }
    match l.notice with
    | some .loanEnded => freeSlot k (place l.borrower { tag := 0, record := .loanEnded id l.endReason } s)
    | some .loanMoved =>
      (place l.borrower { tag := 0, record := .loanMoved id l.placedBay } s).setLoan k { l with notice := none }
    | none => s

/-- R18, R172: the node's queue has an entry for a loan notice: a free one that no waiting DATA claims. -/
def State.roomForNotice (s : State) (n : Nat) : Bool := s.hasRoom n && (s.link n).waitingData.isEmpty

/-- The loan in slot `k` is node `n`'s and has a pending notice that may be placed. A LOAN MOVED still pending on a loan
whose end is decided is not (R19): it stays in the record until LOAN ENDED replaces it (R18). -/
def State.noticeOf (s : State) (n k : Nat) : Bool :=
  match s.loan k with
  | some l => l.borrower == n && l.noticeDue
  | none => false

/-- R18: as far as the node's queue has room, place the pending notices of its loans, lowest slot first. -/
def offerLoanNotices (n : Nat) (s : State) : State :=
  s.eachSlot fun k s => if s.roomForNotice n && s.noticeOf n k then placeLoanNotice k s else s

/-- R14, R18: the loan in slot `k` has no command record left and its end is decided. A LINK_LOST loan's slot is freed;
any other loan enters ENDED, and the record owed is placed now or left pending. -/
def enterEnded (k : Nat) (s : State) : State :=
  match s.loan k with
  | none => s
  | some l =>
    if l.endReason = some .linkLost then freeSlot k s
    else
      let id : LoanId := { slot := k, issue := (s.slot k).issue }
      match l.returnTag with
      | some t =>
        let r : Record := if l.endReason = some .returned then .returned id .ok none else .returned id .ended l.endReason
        let s := placeReserved l.borrower { tag := t, record := r } s
        freeSlot k (s.setLoan k { l with state := .ended, notice := none, idle := 0 })
      | none =>
        offerLoanNotices l.borrower (s.setLoan k { l with state := .ended, notice := some .loanEnded, idle := 0 })

/-- R14: a RETURNING or ENDING loan whose commands field is 0 goes on to ENDED. -/
def endIfIdle (k : Nat) (s : State) : State :=
  match s.loan k with
  | some l => if (l.state = .returning ∨ l.state = .ending) ∧ l.commands = 0 then enterEnded k s else s
  | none => s

/-- R61, R4, R46: free a command record; whatever it still holds returns to the pool. -/
def freeRecord (ref : CommandRef) (s : State) : State :=
  match s.record ref with
  | none => s
  | some r =>
    let s := { giveBack ref r.held s with records := (giveBack ref r.held s).records.eraseP fun r => r.ref == ref }
    match s.loan r.loan.slot with
    | none => s
    | some l => endIfIdle r.loan.slot (s.setLoan r.loan.slot { l with commands := l.commands - 1, idle := 0 })

/-- R61: a record is freed when its final reply has been placed and it holds no buffer. -/
def freeIfDone (ref : CommandRef) (s : State) : State :=
  match s.record ref with
  | some r => if r.replied ∧ r.held = 0 then freeRecord ref s else s
  | none => s

/-! ### Final replies and DATA -/

/-- Place a command's final reply into its reservation; for a lost link nothing is placed (R84). -/
def finalReply (ref : CommandRef) (out : Record) (s : State) : State :=
  match s.record ref with
  | none => s
  | some r =>
    let s := if s.lost r then s else placeReserved ref.node { tag := ref.tag, record := out } s
    s.modRecord ref fun r => { r with replied := true }

/-- R76: end a READ or WRITE at once with DONE, its buffers returning to the pool. -/
def endDone (ref : CommandRef) (st : Status) (blocks : Nat) (s : State) : State :=
  freeRecord ref (finalReply ref (.done st blocks) s)

/-- R90: the stream ends now; its record is freed when its last placed DATA has been sent. DESIGN CHOICE (log entry 50): a carry that
is left is discarded here, at the boundary, also that of a cut stream whose loan the fault handling has ended (R96). -/
def endStream (ref : CommandRef) (st : Status) (s : State) : State :=
  match s.record ref with
  | none => s
  | some r =>
    let s := finalReply ref (.streamEnd st r.delivered) s
    freeIfDone ref (s.modRecord ref fun r => { r with state := .delivering, carry := 0 })

/-- The node's waiting DATA holds a record of the command (R72). -/
def State.dataWaits (s : State) (ref : CommandRef) : Bool :=
  (s.link ref.node).waitingData.any fun w => w.tag == ref.tag

/-- R72, R74: the DONE of a READ whose disk work is over is placed when no DATA record of it waits. -/
def settleRead (ref : CommandRef) (s : State) : State :=
  match s.record ref with
  | none => s
  | some r =>
    match r.kind, r.outcome with
    | .read, some st =>
      if r.replied || s.dataWaits ref then s
      else freeIfDone ref (finalReply ref (.done st r.done) s)
    | _, _ => s

/-- R89: blocks delivered rises when a DATA record of a stream is placed. -/
def countDelivered (ref : CommandRef) (s : State) : State :=
  s.modRecord ref fun r => if r.kind = .stream then { r with delivered := r.delivered + 1 } else r

/-- R72, R73, R89: a filled buffer becomes a DATA record, placed at once, or waiting behind those that wait already. For
a lost link the buffer returns to the pool instead. -/
def deliver (ref : CommandRef) (w : WaitingData) (s : State) : State :=
  match s.record ref with
  | none => s
  | some r =>
    if s.lost r || !(s.link ref.node).presence then giveBack ref 1 s
    else if s.roomForNotice ref.node then
      countDelivered ref (place ref.node { tag := w.tag, record := .data w.block w.index w.bytes } s)
    else s.modLink ref.node fun x => { x with waitingData := x.waitingData ++ [w] }

/-! ### Rings (R99 to R101) -/

/-- A member without one of its queued commands; none when that was its last. -/
def Member.without (ref : CommandRef) (m : Member) : Option Member :=
  if m.queued.contains ref then
    let q := m.queued.filter fun r => r != ref
    if q.isEmpty then none else some { m with queued := q }
  else some m

/-- A queued command leaves the ring of a bay; a member left without one leaves the ring (R101). -/
def ringDrop (b : Nat) (ref : CommandRef) (s : State) : State :=
  s.modBay b fun x => { x with ring := x.ring.filterMap (Member.without ref) }

/-- A member leaves the ring of a bay with all its queued work (R101). The ring is listed from the pointer member, so the
pointer moves to the member that followed a leaving pointer member. -/
def ringLeave (b : Nat) (who : MemberKind) (s : State) : State :=
  s.modBay b fun x => { x with ring := x.ring.filter fun m => m.who != who }

/-- R100: a member joins with credit 0, immediately before the pointer member; the only member of an empty ring. -/
def ringJoin (b : Nat) (m : Member) (s : State) : State := s.modBay b fun x => { x with ring := x.ring ++ [m] }

/-! ### Ends of loans (R14 to R17) -/

/-- The statuses of DONE and STREAM END, in the order of their codes (Table 9-4). -/
def listedStatuses : List Status :=
  [.ok, .mediaError, .cancelled, .reclaimed, .bayFault, .bayReleased, .twinDropped, .noLoan, .ended, .readOnly, .outside,
   .limit, .dataLate, .dataOrder]

/-- R15: the work status of an end. DESIGN CHOICE (log entry 49): a command of a loan that ends HOLD_EXPIRED, which takes a hold
limit of 0, gets a free value among the listed statuses. -/
def workStatus : EndReason → Status
  | .returned => .cancelled
  | .holdExpired => listedStatuses.getD (Config.holdExpiredStatus % 14) .ended
  | .reclaimed => .reclaimed
  | .bayFault => .bayFault
  | .bayReleased => .bayReleased
  | .twinDropped => .twinDropped
  | .linkLost => .linkLost

/-- RECLAIMED and LINK_LOST stop a command in service at its next block completion (R16). DESIGN CHOICE (log entry 49): HOLD_EXPIRED,
which R16 does not list there, does not. -/
def EndReason.stops : EndReason → Bool
  | .reclaimed => true
  | .linkLost => true
  | _ => false

/-- R16, R93, R84: the end event of a loan reaches one of its command records. `bay` is the loan's placed bay; `first` says
that it is the loan's first end, whose work status a stream's closing takes; a second end keeps it (R93). -/
def endWork (bay : Nat) (reason : EndReason) (first : Bool) (ref : CommandRef) (s : State) : State :=
  match s.record ref with
  | none => s
  | some r =>
    let st := workStatus reason
    let onDisk := r.state == .poolWait || r.state == .inService
    match r.kind, r.state with
    | .stream, .queued => endStream ref st (ringDrop bay ref s)
    | _, .queued => endDone ref st 0 (ringDrop bay ref s)
    | _, .gathering => endDone ref st 0 s
    | .stream, _ =>
      if r.replied then (if reason = .linkLost then freeRecord ref s else s)
      else if reason = .linkLost ∧ !onDisk then freeRecord ref s
      else s.modRecord ref fun r =>
        { r with closing := if first then some st else r.closing, stop := r.stop || reason.stops }
    | _, _ =>
      if onDisk then s.modRecord ref fun r => { r with stop := r.stop || reason.stops }
      else if reason = .linkLost then freeRecord ref s else s

/-- The command records of the loan in slot `k`, in the order of their making (R16). -/
def State.recordsOf (s : State) (k : Nat) : List CommandRef :=
  (s.records.filter fun r => r.loan.slot == k).map Command.ref

/-- R15 and R17: an end with a reason is decided for the loan in slot `k`. DESIGN CHOICE (log entry 43): a pending LOAN MOVED
of an ACTIVE loan that ends LINK_LOST is cleared at the decision, not when the loan reaches ENDED. -/
def decideEnd (k : Nat) (reason : EndReason) (s : State) : State :=
  match s.loan k with
  | none => s
  | some l =>
    if l.state = .active then
      let st : LoanState := if reason = .returned then .returning else .ending
      -- with the reason LINK_LOST nothing is owed to the node (R17, R18)
      let l := if reason = .linkLost then { l with returnTag := none, notice := none } else l
      let s := (s.setLoan k { l with state := st, endReason := some reason, idle := 0, move := none }).oweScan
      let s := (s.recordsOf k).foldl (fun s ref => endWork l.placedBay reason true ref s) s
      endIfIdle k s
    else if reason = .linkLost then
      let s := (s.setLoan k { l with endReason := some .linkLost, returnTag := none, notice := none }).oweScan
      let s := (s.recordsOf k).foldl (fun s ref => endWork l.placedBay .linkLost false ref s) s
      if l.state = .ended then freeSlot k s else endIfIdle k s
    else s

/-! ### Hold limits (R51 to R53) -/

/-- R53: recompute the hold limit of the loan in slot `k`; an ACTIVE loan whose idle clock is at or above it ends. -/
def recompute (k : Nat) (s : State) : State :=
  match s.loan k with
  | none => s
  | some l =>
    let limit := s.holdLimit l
    let s := s.setLoan k { l with holdLimit := limit }
    if l.state = .active ∧ limit ≤ l.idle then decideEnd k .holdExpired s else s

/-- R51: recompute the loans that a test picks, lowest slot first. -/
def recomputeWhere (p : State → Loan → Bool) (s : State) : State :=
  s.eachSlot fun k s => match s.loan k with
    | some l => if p s l then recompute k s else s
    | none => s

/-- R27, R37: recompute the loans that a wait entry conflicts with; a masked entry causes none. -/
def recomputeAgainst (e : WaitEntry) (s : State) : State :=
  if e.masked then s else recomputeWhere (fun s l => s.conflictsLoan e.bay e.kind e.range l) s

end Sys2Proof.Machine
end

