-- ==== Sys2Proof/Machine/Grants.lean ====
section
/-! DEFINITION. The shared operations, part 2: grants, placement, wait entries and the grant scan (01, 02). -/

namespace Sys2Proof.Machine

/-- R8: a class above the cap is lowered to it. -/
def clampClass (cap c : Cls) : Cls := if c.rank < cap.rank then cap else c

/-- R8: a last block at or past a known capacity is lowered to capacity−1, unless the first block is past it too. -/
def clampRange (capacity : Option Nat) (r : Option Range) : Option Range :=
  match capacity, r with
  | some c, some r => if r.first < c ∧ c ≤ r.last then some { r with last := c - 1 } else some r
  | _, r => r

/-- R9 check 3, R34 step 4: the range starts at or past a known capacity. -/
def rangeOutside (capacity : Option Nat) (r : Option Range) : Bool :=
  match capacity, r with
  | some c, some r => c ≤ r.first
  | _, _ => false

/-- R11: the LIVE record through which a new loan on bay `b` is placed, if any. -/
def State.placementTwin (s : State) (b : Nat) (kind : LoanKind) (range : Option Range) : Option (Nat × Nat) :=
  match kind, range with
  | .view, some r =>
    (List.range Config.twins).findSome? fun t => match s.twin t with
      | some w =>
        if w.state = .live ∧ w.source = b ∧ (s.bay w.target).state = .ready ∧ w.first ≤ r.first ∧ r.last ≤ w.last ∧
            s.loansVia t < s.viewsPlacedOn b then some (t, w.target) else none
      | none => none
  | _, _ => none

/-- R161: a LIVE record with source bay `b` whose range overlaps `range` becomes STALE. -/
def Twin.stale (b : Nat) (range : Option Range) (w : Twin) : Twin :=
  if w.state = .live ∧ w.source = b ∧ overlaps range (some ⟨w.first, w.last⟩) then { w with state := .stale } else w

/-- R161: a KEEP grant makes STALE the LIVE record on its source bay whose range overlaps the loan's. -/
def staleTwins (b : Nat) (range : Option Range) (s : State) : State :=
  let twins := s.twins.map (Option.map (Twin.stale b range))
  if twins = s.twins then s else ({ s with twins := twins }).oweScan

/-- R1, R3, R10, R11, R36: make a loan in slot `k` and place GRANTED under `tag` into the request's reservation. -/
def makeLoan (k node tag bay : Nat) (kind : LoanKind) (cls : Cls) (range : Option Range) (s : State) : State :=
  let issue := ((s.slot k).issue + 1) % 256
  let placement := s.placementTwin bay kind range
  let loan : Loan :=
    { borrower := node, askedBay := bay, placedBay := (placement.map Prod.snd).getD bay
      viaTwin := placement.map Prod.fst, kind, cls, range, state := .active, endReason := none
      holdBase := (s.nodeEntry node).holdBase, holdLimit := 0, idle := 0, commands := 0, notice := none
      returnTag := none, move := none }
  let loan := { loan with holdLimit := s.holdLimit loan }
  let s := s.setSlot k { issue, loan := some loan }
  let s := placeReserved node { tag, record := .granted ⟨k, issue⟩ loan.placedBay kind cls range loan.holdLimit } s
  if kind = .keep then staleTwins bay range s else s

/-- R37: a wait entry, already off the list, has left it without a grant. -/
def refuseEntry (e : WaitEntry) (reason : NodeReason) (s : State) : State :=
  (recomputeAgainst e (placeReserved e.node { tag := e.tag, record := .refused reason } s)).oweScan

/-- R38, R39, R41: the entries that a test picks leave the list, in wait order. DESIGN CHOICE (log entry 40): all of them are
off the list before the first of R37's recomputes, so that none of them counts in the P of R50 there. -/
def removeWaits (p : WaitEntry → Bool) (reason : NodeReason) (s : State) : State :=
  let gone := s.waits.filter p
  if gone.isEmpty then s
  else gone.foldl (fun s e => refuseEntry e reason s) { s with waits := s.waits.filter fun e => !p e }

/-- R38: the wait entries that name a bay. -/
def removeWaitsOn (b : Nat) (reason : NodeReason) (s : State) : State := removeWaits (fun e => e.bay == b) reason s

/-- R35, but for a free table slot: `earlier` are the entries before `e` still on the list. -/
def State.grantable (s : State) (earlier : List WaitEntry) (e : WaitEntry) : Bool :=
  (s.bay e.bay).state == .ready && !s.conflictsTable e.bay e.kind e.range && !s.conflictsCopying e.bay e.kind e.range &&
  !earlier.any fun x => !x.masked && conflictsEntry e.bay e.kind e.range x

/-- R34: the walk over the wait list. `kept` are the entries before `todo` that stay; the list is `kept ++ todo`. -/
def scanFrom (kept : List WaitEntry) : List WaitEntry → State → State
  | [], s => s
  | e :: rest, s =>
    let bay := s.bay e.bay
    let without : State := { s with waits := kept ++ rest }
    if e.masked then scanFrom (kept ++ [e]) rest s
    else if !bay.state.awaitable then
      scanFrom kept rest (refuseEntry e (if bay.state = .draining then .bayReleasing else .noBay) without)
    else if s.isTwinTarget e.bay then scanFrom kept rest (refuseEntry e .twinTarget without)
    else if rangeOutside bay.capacity e.range then scanFrom kept rest (refuseEntry e .outside without)
    else if s.grantable kept e then
      match s.freeSlotNumber with
      | none => s
      | some k =>
        scanFrom kept rest
          (recomputeAgainst e (makeLoan k e.node e.tag e.bay e.kind e.cls (clampRange bay.capacity e.range) without))
    else scanFrom (kept ++ [e]) rest s

/-- R33, R34: the grant scan. What it grants and removes causes no further scan. DESIGN CHOICE (log entry 35): neither does
a loan that ends in the recomputation for an entry the scan refused (R37, R53). -/
def grantScan (s : State) : State := { scanFrom [] s.waits s with scanDue := false }

/-- R33: the end of a handling, with the one grant scan it owes. -/
def finish (s : State) : State := if s.scanDue then grantScan s else s

/-- R28: a new entry stands after the last entry of its own class and before the first of any lower class. -/
def insertWait (e : WaitEntry) (l : List WaitEntry) : List WaitEntry :=
  l.takeWhile (fun x => x.cls.rank ≤ e.cls.rank) ++ e :: l.dropWhile (fun x => x.cls.rank ≤ e.cls.rank)

end Sys2Proof.Machine
end

