-- ==== Sys2Proof/Machine/Shelf.lean ====
section
/-! DEFINITION. The shared operations, part 3: copies, the hot trigger, moves of loans, disk operations and units, and the
handlings of a fault and of a drain (05, 06, 07, 08). -/

namespace Sys2Proof.Machine

/-! ### Copies (R149 to R157) -/

/-- The number of a COPY notice's status for an end status (Table 10-2). -/
def CopyEnd.notice : CopyEnd → NoticeStatus
  | .halted => .halted
  | .aborted => .aborted

/-- R157: the copy of channel `c` has no unit left and ends. -/
def endCopy (c : Nat) (s : State) : State :=
  let ch := s.channel c
  match ch.endStatus with
  | none => s
  | some e => ((occur .copy ch.twin e.notice ((giveBackChannel c s).setChannel c Channel.free)).setTwin ch.twin none).oweScan

/-- R157: a later ABORTED replaces HALTED; a later HALTED leaves ABORTED. -/
def CopyEnd.join : Option CopyEnd → CopyEnd → CopyEnd
  | some .aborted, _ => .aborted
  | _, e => e

/-- R157: a halt or an abort is decided for the copy of twin record `t`. With no unit on a disk or waiting for buffers
the copy ends at once. -/
def decideCopyEnd (t : Nat) (e : CopyEnd) (s : State) : State :=
  match s.twin t with
  | none => s
  | some w =>
    match w.channel with
    | none => s
    | some c =>
      let s := s.modChannel c fun x => { x with endStatus := some (CopyEnd.join x.endStatus e) }
      match (s.channel c).phase with
      | .none => endCopy c s
      | .queued => endCopy c (ringLeave w.source (.channel c) s)
      | .pending => endCopy c (s.modBay w.target fun x => { x with chunkWrite := none })
      | .chosen => s
      | .reading => s
      | .writing => s

/-- R154, R116: queue the next chunk read of channel `c` on its source bay. -/
def queueChunkRead (c : Nat) (s : State) : State :=
  match s.twin (s.channel c).twin with
  | none => s
  | some w =>
    let s := s.modChannel c fun x =>
      { x with phase := .queued, chunkFirst := w.next, chunkCount := min Config.chunk (w.last - w.next + 1) }
    ringJoin w.source { who := .channel c, cls := .bulk, credit := 0, visited := false, queued := [] } s

/-- R153: the first check that refuses a copy, if any. DESIGN CHOICE (log entry 47): check 2 reads what R153 lists, so that a
bay toward which R160 has left a held move with via absent can become a target. -/
def State.copyRefusal (s : State) (source target first last : Nat) : Option SupReason :=
  let anyLoan (p : Loan → Bool) : Bool := s.loans.any fun k => k.loan.any p
  let named (b : Nat) : Bool := s.isTwinSource b || s.isTwinTarget b
  let below (b : Nat) : Bool := match (s.bay b).capacity with
    | some c => first ≤ last && last < c
    | none => false
  if (s.bay source).state ≠ .ready ∨ (s.bay target).state ≠ .ready then some .notReady
  else if anyLoan (fun l => l.placedBay == target || s.sourceBay l == target) || named target then some .targetBusy
  else if named source then some .sourceBusy
  else if !(below source && below target) then some .outside
  else if anyLoan fun l => l.kind == .keep && s.sourceBay l == source && overlaps l.range (some ⟨first, last⟩) then
    some .keepHeld
  else if s.channels.all Channel.busy then some .noChannel
  else if s.twins.all Option.isSome then some .noTwin
  else none

/-- The lowest-numbered free copy channel and twin slot (R149, R151). -/
def State.freeChannel (s : State) : Nat := s.channels.findIdx fun c => !c.busy
def State.freeTwin (s : State) : Nat := s.twins.findIdx Option.isNone

/-- R153: a copy that passes every check is made in one handling. -/
def startCopy (source target first last : Nat) (s : State) : State :=
  let c := s.freeChannel
  let t := s.freeTwin
  let w : Twin := { source, target, first, last, state := .copying, channel := some c, next := first, retiring := false }
  let s := (s.setTwin t (some w)).setChannel c { Channel.free with busy := true, twin := t }
  queueChunkRead c ((removeWaitsOn target .twinTarget s).oweScan)

/-! ### Queueing commands, and the hot trigger (R99, R100, R167) -/

/-- R167: the queued count of bay `b` has risen to `count`. -/
def hotTrigger (b count : Nat) (s : State) : State :=
  let p := s.profile b
  if p.hotThreshold ≠ 0 ∧ count = p.hotThreshold ∧ s.settings.level ≠ .lockdown then
    match p.spare with
    | none => s
    | some target =>
      match s.copyRefusal b target p.hotFirst p.hotLast with
      | some _ => s
      | none => occur .copy s.freeTwin .started (startCopy b target p.hotFirst p.hotLast s)
  else s

/-- R100: a command of the loan in slot `k` joins the ring: at the end of the member's queued commands, or with a new
member placed immediately before the pointer member. -/
def joinRing (k : Nat) (cls : Cls) (ref : CommandRef) (ring : List Member) : List Member :=
  if ring.any fun m => m.who == .loan k then
    modifyFirst (fun m => m.who == .loan k) (fun m => { m with queued := m.queued ++ [ref] }) ring
  else ring ++ [{ who := .loan k, cls, credit := 0, visited := false, queued := [ref] }]

/-- R99, R100, R167: a command record of the loan in slot `k` becomes QUEUED on bay `b`. -/
def queueCommand (b k : Nat) (ref : CommandRef) (s : State) : State :=
  match s.loan k with
  | none => s
  | some l =>
    let s := (s.modRecord ref fun r => { r with state := .queued }).modBay b fun x =>
      { x with ring := joinRing k l.cls ref x.ring }
    hotTrigger b (s.bay b).queuedCount s

/-! ### Moves (R20, R21, R166) -/

/-- R20, R117: carry out a move of the loan in slot `k`. A retiring record that the loan named is freed when the move has
been carried out whole (log entry 21). DESIGN CHOICE (log entry 34): the hold limit is not recomputed, also where the loan's
source bay changes because R160 has cleared the via twin of its held move. DESIGN CHOICE (log entry 39): nor is such a loan
tested against the loans granted on its new bay since the clearing, so that a KEEP loan among them can overlap it. DESIGN
CHOICE (log entry 47): nor against a copy that has taken its new bay as target since; it moves there with via absent. -/
def carryOutMove (k newBay : Nat) (newVia : Option Nat) (s : State) : State :=
  match s.loan k with
  | none => s
  | some l =>
    let refs := ((s.bay l.placedBay).ring.filter fun m => m.who == .loan k).flatMap Member.queued
    let s := ringLeave l.placedBay (.loan k) s
    let s := s.setLoan k { l with placedBay := newBay, viaTwin := newVia, move := none, notice := some .loanMoved }
    let s := refs.foldl (fun s ref => queueCommand newBay k ref s) s
    let s := match l.viaTwin with
      | some t => freeTwinIfUnnamed t s
      | none => s
    offerLoanNotices l.borrower s.oweScan

/-- R20, R21, R166: the twin table orders a move of the loan in slot `k`. -/
def orderMove (k newBay : Nat) (newVia : Option Nat) (reason : EndReason) (s : State) : State :=
  match s.loan k with
  | none => s
  | some l =>
    if l.state ≠ .active then s
    else if (s.bay newBay).state ≠ .ready then decideEnd k reason s
    else if s.workOnBay k then s.setLoan k { l with move := some { bay := newBay, via := newVia, reason := reason } }
    else carryOutMove k newBay newVia s

/-- R166: bay `b` has left READY; the held moves toward it are cleared and their loans end. DESIGN CHOICE (log entry 45): in
slot order, lowest first. -/
def clearMovesTo (b : Nat) (s : State) : State :=
  s.eachSlot fun k s => match s.loan k with
    | some l => match l.move with
      | some m => if m.bay = b then decideEnd k m.reason s else s
      | none => s
    | none => s

/-- R162: the loans that failover and a source's drain move: ACTIVE, VIEW, on `source`, via twin absent, a range lying
wholly inside the record's. -/
def Twin.covers (w : Twin) (l : Loan) : Bool :=
  l.state == .active && l.kind == .view && l.placedBay == w.source && l.viaTwin == none &&
  match l.range with
  | some r => w.first ≤ r.first && r.last ≤ w.last
  | none => false

/-- Change twin record `t`, if it still exists. -/
def State.modTwin (s : State) (t : Nat) (f : Twin → Twin) : State :=
  match s.twin t with
  | some w => s.setTwin t (some (f w))
  | none => s

/-- R149: the record becomes retiring; a LIVE one becomes STALE at the same moment. -/
def retire (w : Twin) : Twin := { w with retiring := true, state := if w.state = .live then .stale else w.state }

/-- R162, R164: hand the loan manager, in slot order, a move to the target for each loan the record covers. -/
def moveToTarget (t : Nat) (w : Twin) (reason : EndReason) (s : State) : State :=
  s.eachSlot fun k s => match s.loan k with
    | some l => if w.covers l then orderMove k w.target (some t) reason s else s
    | none => s

/-- R159, R163: hand the loan manager, in slot order, a move to the source for each ACTIVE loan that names the record. -/
def moveToSource (t : Nat) (w : Twin) (reason : EndReason) (s : State) : State :=
  s.eachSlot fun k s => match s.loan k with
    | some l => if l.state = .active ∧ l.viaTwin = some t then orderMove k w.source none reason s else s
    | none => s

/-- R159, R163, R165: a LIVE or STALE record becomes retiring, its loans are moved back to the source, and it is freed
when none names it. -/
def retireAndMove (t : Nat) (w : Twin) (reason : EndReason) (s : State) : State :=
  freeTwinIfUnnamed t (moveToSource t w reason (s.modTwin t retire).oweScan)

/-- R162, R163: bay `b` has faulted or been pulled. -/
def twinFault (b : Nat) (s : State) : State :=
  match s.twinNaming b with
  | none => s
  | some t => match s.twin t with
    | none => s
    | some w =>
      if w.retiring then s
      else match w.state with
        | .copying => decideCopyEnd t .aborted s
        | .live =>
          if w.source = b then (moveToTarget t w .bayFault s).modTwin t (fun w => { w with state := .orphan }) |>.oweScan
          else retireAndMove t w .bayFault s
        | .stale =>
          if w.source = b then (moveToTarget t w .bayFault s).modTwin t (fun w => { w with state := .orphan }) |>.oweScan
          else retireAndMove t w .bayFault s
        | .orphan => if w.source = b then s else freeTwinIfUnnamed t (s.modTwin t retire)

/-- R164, R165: bay `b` has entered DRAINING. -/
def twinDrain (b : Nat) (s : State) : State :=
  match s.twinNaming b with
  | none => s
  | some t => match s.twin t with
    | none => s
    | some w =>
      if w.retiring then s
      else match w.state with
        | .copying => decideCopyEnd t .halted s
        | .live =>
          if w.source = b then
            (moveToTarget t w .bayReleased s).modTwin t (fun w => { w with state := .orphan }) |>.oweScan
          else retireAndMove t w .twinDropped s
        | .stale =>
          if w.source = b then (s.modTwin t fun w => { w with state := .orphan }).oweScan
          else retireAndMove t w .twinDropped s
        | .orphan => if w.source = b then s else freeTwinIfUnnamed t (s.modTwin t retire)

/-! ### Disk operations and units (R125, R126, R97) -/

/-- R126, Table 7-5: the time limit of an operation, read from the profile at the moment of issue. -/
def opLimitOf (p : Profile) (powerOnSpin : Bool) : DiskOp → Nat
  | .spinUp => if powerOnSpin then Config.powerOnSpinLimit else p.spinLimit
  | .spinDown => p.spinLimit
  | .identify => p.operationTimeout
  | .readBlock _ => p.operationTimeout
  | .writeBlock .. => p.operationTimeout
  | .verifyRun .. => p.operationTimeout

/-- R125, R126: issue a disk operation on bay `b`, starting the operation timer at 0. -/
def issueOp (b : Nat) (op : DiskOp) (s : State) : State :=
  s.modBay b fun x => { x with op := some op, opNumber := x.opNumber + 1, opTimer := 0,
                               opLimit := opLimitOf (s.profile b) x.powerOnSpin op }

/-- An operation's answer, or its abandonment, stops the timer (R126). -/
def Bay.opOver (x : Bay) : Bay := { x with op := none, opTimer := 0, opLimit := 0 }

/-- The next block operation of a command record: block `done` of the READ, segment or WRITE (R71, R75). -/
def Command.nextOp (r : Command) : DiskOp :=
  match r.kind with
  | .write => .writeBlock (r.first + r.done) (r.gathered.getD r.done [])
  | _ => .readBlock (r.segFirst + r.done)

/-- The unit becomes the bay's operation in service and its first disk operation is issued (R113). -/
def startUnit (b : Nat) (u : DiskUnit) (s : State) : State :=
  let s := s.modBay b fun x => { x with service := some u, chosen := none }
  match u with
  | .command ref =>
    match s.record ref with
    | some r => issueOp b r.nextOp (s.modRecord ref fun r => { r with state := .inService })
    | none => s
  | .chunkRead c => issueOp b (.readBlock (s.channel c).chunkFirst) (s.modChannel c fun x => { x with phase := .reading })
  | .chunkWrite c =>
    issueOp b (.writeBlock (s.channel c).chunkFirst ((s.channel c).filled.getD 0 []))
      (s.modChannel c fun x => { x with phase := .writing })
  | .verify => s
  | .lost => s

/-- The bay's operation in service is over. -/
def endService (b : Nat) (s : State) : State := s.modBay b fun x => { x with service := none }

/-- R144: block `n` joins the weak list of bay `b`. -/
def weakJoin (b n : Nat) (s : State) : State :=
  let w := (s.bay b).weak
  if w.contains n then s
  else
    let w' := (if w.length < Config.weak then w else w.drop 1) ++ [n]
    let s := occur .weak b .none (s.modBay b fun x => { x with weak := w' })
    if w'.length = Config.weak then occur .worn b .none s else s

/-- R145: blocks that a test picks leave the weak list of bay `b`. -/
def weakRemove (b : Nat) (p : Nat → Bool) (s : State) : State :=
  s.modBay b fun x => { x with weak := x.weak.filter fun n => !p n }

/-- R141: the upkeep timer starts at 0 with the profile's period; with a period of 0 it stays stopped. -/
def upkeepStart (p : Profile) : Option UpkeepTimer :=
  if p.upkeepPeriod = 0 then none else some { seconds := 0, ticks := 0, period := p.upkeepPeriod }

/-! ### The end of a command's disk work -/

/-- A READ or stream segment ends its disk work with `st` (`none`: a stream's segment that ended otherwise than by a media
error); the buffers of the blocks not read return to the pool (R71, R74, R58, R91). A lost record is freed (R84). -/
def endReading (ref : CommandRef) (st : Option Status) (s : State) : State :=
  match s.record ref with
  | none => s
  | some r =>
    if s.lost r then freeRecord ref s
    else
      let s := giveBack ref (r.count - r.done) s
      settleRead ref (s.modRecord ref fun r => { r with state := .delivering, outcome := st })

/-- R75: a WRITE ends with `st` and its blocks done. -/
def endWriting (ref : CommandRef) (st : Status) (s : State) : State :=
  match s.record ref with
  | none => s
  | some r => endDone ref st r.done s

/-- R132 step 2: the fault of a bay ends a command in service or waiting for buffers. -/
def faultCommand (ref : CommandRef) (s : State) : State :=
  match s.record ref with
  | none => s
  | some r =>
    -- a command in POOL_WAIT holds no buffer yet, so there is none to return for its blocks
    match r.kind with
    | .write => endWriting ref .bayFault s
    | .read => if r.state = .poolWait then endDone ref .bayFault 0 s else endReading ref (some .bayFault) s
    | .stream =>
      let s := s.modRecord ref fun r => { r with carry := r.count - r.done }
      if r.state = .poolWait then
        if s.lost r then freeRecord ref s else s.modRecord ref fun r => { r with state := .delivering, outcome := none }
      else endReading ref none s

/-- R132 step 2: the fault of a bay ends a unit. A copy's unit leaves its channel without one; the copy's end is decided
in step 3. -/
def faultUnit (u : DiskUnit) (s : State) : State :=
  match u with
  | .command ref => faultCommand ref s
  | .chunkRead c => s.modChannel c fun x => { x with phase := .none }
  | .chunkWrite c => s.modChannel c fun x => { x with phase := .none }
  | .verify => s
  | .lost => s

/-- R83: bay `b` leaves the pool wait list. -/
def leavePool (w : WaiterKind) (s : State) : State := { s with poolWait := s.poolWait.filter fun x => x.who != w }

/-- R118: the port arbiter clears its state. -/
def Bay.clearArbiter (x : Bay) : Bay := { x with ring := [], deferral := 0, chosen := none, chunkWrite := none }

/-- R124: what the entry into EMPTY sets. -/
def Bay.emptied (x : Bay) (cause : Option FaultCause) : Bay :=
  { x.opOver with capacity := none, head := 0, cursor := 0, upkeepTimer := none, upkeepDue := false,
                  powerOnSpin := false, weak := [], faultCause := cause }

/-- R132: the fault handling of bay `b`, READY or DRAINING, with cause NO_ANSWER or PULLED. DEDUCED (log entry 38): a
RETURNING or ENDING loan whose last command ends in step 2 reaches ENDED in step 2. DESIGN CHOICE (log entry 44): the held
moves toward `b` are cleared, and their loans ended (R166), at the start of step 3, before the twin table's failover. DESIGN
CHOICE (log entry 48): the state is set first, as R132 says, where R122 says that the loans are moved or ended before. -/
def faultHandling (b : Nat) (cause : FaultCause) (s : State) : State :=
  let units := [(s.bay b).service, (s.bay b).chosen, (s.bay b).chunkWrite.map DiskUnit.chunkWrite]
  -- 1. State
  let s := s.modBay b fun x =>
    if cause = .pulled then x.emptied (some cause)
    else { x.opOver with faultCause := some cause, upkeepTimer := none, upkeepDue := false }
  let s := setBayState b (if cause = .pulled then .empty else .faulted) s
  -- 2. Unit in service
  let s := s.modBay b fun x => { x with service := none, chosen := none, chunkWrite := none }
  let s := units.foldl (fun s u => match u with
    | some u => faultUnit u s
    | none => s) s
  -- 3. Twins
  let s := clearMovesTo b s
  let s := twinFault b s
  let s := s.eachSlot fun k s => match s.loan k with
    | some l => match l.move with
      | some m =>
        if l.placedOn b then
          (if (s.bay m.bay).state = .ready then carryOutMove k m.bay m.via s else decideEnd k .bayFault s)
        else s
      | none => s
    | none => s
  -- 4. Loans
  let s := s.eachSlot fun k s => match s.loan k with
    | some l => if l.placedOn b then decideEnd k .bayFault s else s
    | none => s
  -- 5. Wait list
  let s := removeWaitsOn b .noBay s
  -- 6. Ring and pool
  (leavePool (.bay b) (s.modBay b Bay.clearArbiter)).oweScan

/-! ### Spin-up, release and drain (R123 to R140) -/

/-- A bay enters SPIN_WAIT and joins the tail of the spin queue, its fault cause cleared (R123, R140), with power-on spin no
(R147). -/
def enterSpinWait (b : Nat) (s : State) : State :=
  let s := setBayState b .spinWait (s.modBay b fun x => { x with faultCause := none, powerOnSpin := false })
  { s with spinQueue := s.spinQueue ++ [b] }

/-- R127: a bay leaves the spin queue. -/
def leaveSpinQueue (b : Nat) (s : State) : State := { s with spinQueue := s.spinQueue.filter fun x => x != b }

/-- R139, R118, R138: a bay enters STOPPING and SPIN DOWN is issued. -/
def enterStopping (b : Nat) (s : State) : State :=
  let s := s.modBay b fun x => { x.opOver.clearArbiter with upkeepDue := false, upkeepTimer := none, service := none }
  issueOp b .spinDown (setBayState b .stopping s)

/-- R139: a bay enters RELEASED. -/
def enterReleased (b : Nat) (s : State) : State :=
  setBayState b .released (s.modBay b fun x => { x.opOver with faultCause := none })

/-- R138: the test that takes a DRAINING bay to STOPPING. -/
def State.drained (s : State) (b : Nat) : Bool :=
  (s.bay b).state == .draining && !s.anyPlacedOn b && (s.bay b).service.isNone && (s.bay b).chosen.isNone

def drainTest (b : Nat) (s : State) : State := if s.drained b then enterStopping b s else s

/-- R137: the drain handling of a READY bay. DESIGN CHOICE (log entry 44): the held moves toward `b` are cleared, and their
loans ended (R166), at the start of step 2, before the moves that the twin table orders. -/
def drainHandling (b : Nat) (s : State) : State :=
  -- 1. State
  let s := removeWaitsOn b .bayReleasing (setBayState b .draining s)
  -- 2. Twins
  let s := twinDrain b (clearMovesTo b s)
  -- 3. Loans
  let s := s.eachSlot fun k s => match s.loan k with
    | some l => if l.placedOn b ∧ l.move = none then decideEnd k .bayReleased s else s
    | none => s
  drainTest b s.oweScan

/-- A bay enters FAULTED from SPINNING (R129): its wait entries are refused NO_BAY (R38). -/
def spinFault (b : Nat) (cause : FaultCause) (s : State) : State :=
  let s := setBayState b .faulted (s.modBay b fun x => { x.opOver with faultCause := some cause })
  (removeWaitsOn b .noBay s).oweScan

/-- R134, R136, R137: a release of bay `b`, in SPIN_WAIT, SPINNING or READY. -/
def releaseBay (b : Nat) (s : State) : State :=
  match (s.bay b).state with
  | .spinWait => (removeWaitsOn b .noBay (enterReleased b (leaveSpinQueue b s))).oweScan
  | .spinning => (removeWaitsOn b .noBay (enterStopping b s)).oweScan
  | .ready => drainHandling b s
  | _ => s

end Sys2Proof.Machine
end

