-- ==== Sys2Proof/Machine/Loans.lean ====
section
/-! DEFINITION. The meanings of BORROW, WITHDRAW, RETURN, HOLD and QUERY (01, 02), and the frames of node links in
general: a frame that is not at the head of the link's queue, or whose needs cannot be met, is not taken (R171). -/

namespace Sys2Proof.Machine

/-- Take the head frame of link `l` if it is of kind `kind` and act on it; the handling ends with the grant scan it owes.
With nothing to take, nothing changes (R170, R171). -/
def taking (l kind : Nat) (needs : List Byte → Nat) (act : Frame → State → State) (s : State) : Result :=
  match takeHead l kind needs s with
  | none => .next s
  | some (f, s) => .next (finish (act f s))

/-- A command that names node `n` (00_scope.md 4.2). -/
def onNode (n : Nat) (act : State → Result) (s : State) : Result := if isNode n then act s else .refused .noSuchLink

/-- Table 9-2: frames that need one entry. -/
def oneEntry (_body : List Byte) : Nat := 1
def noEntry (_body : List Byte) : Nat := 0

/-! ### BORROW (R7 to R13, R27, R31) -/

/-- R9: the refusal checks, first that applies. -/
def State.borrowRefusal (s : State) (n : Nat) (bay : Nat) (range : Option Range) : Option NodeReason :=
  let b := s.bay bay
  if Config.bays ≤ bay ∨ b.state = .empty ∨ b.state = .faulted ∨ b.state = .released ∨ b.state = .stopping then some .noBay
  else if b.state = .draining then some .bayReleasing
  else if s.isTwinTarget bay then some .twinTarget
  else if rangeOutside b.capacity range then some .outside
  else if (s.nodeEntry n).loanLimit ≤ s.loanCount n + s.waitCount n then some .nodeLimit
  else none

/-- R12: the reason word of a request that passes R9 and is not grantable now; none when it is (R10). -/
def State.obstacle (s : State) (bay : Nat) (kind : LoanKind) (cls : Cls) (range : Option Range) : Option NodeReason :=
  let b := s.bay bay
  if b.state = .spinWait ∨ b.state = .spinning then some .spin
  else if masks s.settings.level cls then some .masked
  else if s.conflictsTable bay kind range then some .conflict
  else if s.conflictsCopying bay kind range then some .copying
  else if s.waits.any fun e => !e.masked && conflictsEntry bay kind range e then some .order
  else if s.freeSlotNumber.isNone then some .tableFull
  else none

/-- R27, R28, R32, R33: the request becomes a wait entry and is answered QUEUED. -/
def queueRequest (n : Nat) (f : Frame) (q : BorrowBody) (cls : Cls) (range : Option Range) (reason : NodeReason)
    (s : State) : State :=
  let e : WaitEntry := { node := n, tag := f.tag, bay := q.bay, kind := q.kind, cls, range, arrival := s.arrival,
                         masked := masks s.settings.level cls }
  let s := { s with waits := insertWait e s.waits, arrival := (s.arrival + 1) % 65536 }
  let s := recomputeAgainst e (reply n f (.queued cls reason) s)
  if reason = .order then s.oweScan else s

/-- R7: the form checks that stand before BAD_LENGTH, first that applies. -/
def State.borrowHeader (s : State) (n : Nat) (f : Frame) : Option Reject :=
  if !(s.nodeEntry n).enabled then some rejectDisabled
  else if f.tag = 0 then some rejectTag
  else if s.tagPending n f.tag then some rejectDup
  else none

/-- R8 to R12: the decision on a request whose form passes. The surplus reservation is released as the reply is placed,
unless the request is queued (R31). -/
def decideBorrow (n : Nat) (f : Frame) (q : BorrowBody) (s : State) : State :=
  let surplus (s : State) : State := releaseReserved n (borrowNeeds f.body - 1) s
  let cls := clampClass (s.nodeEntry n).classCap q.cls
  let range := clampRange (s.bay q.bay).capacity q.range
  match s.borrowRefusal n q.bay range with
  | some r => surplus (reply n f (.refused r) s)
  | none =>
    match s.obstacle q.bay q.kind cls range, s.freeSlotNumber with
    | some r, _ =>
      if !q.waitAllowed then surplus (reply n f (.refused r) s)
      else if Config.waitEntries ≤ s.waits.length then surplus (reply n f (.refused .waitFull) s)
      else queueRequest n f q cls range r s
    | none, some k => surplus (makeLoan k n f.tag q.bay q.kind cls range s)
    | none, none => surplus s

/-- R7. -/
def borrowAct (n : Nat) (f : Frame) (s : State) : State :=
  match s.borrowHeader n f with
  | some r => releaseReserved n (borrowNeeds f.body - 1) (reject n f r s)
  | none => match borrowForm f.body with
    | .error r => releaseReserved n (borrowNeeds f.body - 1) (reject n f r s)
    | .ok q => decideBorrow n f q s

/-- BORROW (R7). -/
def execBorrow (n : Nat) (s : State) : Result := onNode n (taking n kindBorrow borrowNeeds (borrowAct n)) s

/-! ### WITHDRAW (R39) -/

/-- R39: a WITHDRAW that succeeds has no reply of its own, and its reservation is released. -/
def withdrawAct (n : Nat) (f : Frame) (s : State) : State :=
  if f.body.length < 1 then reject n f (rejectLength f.body 1) s
  else if f.tag = 0 then reject n f rejectTag s
  else
    let target := field f.body 0 1
    if s.waits.any fun e => e.node == n && e.tag == target then
      removeWaits (fun e => e.node == n && e.tag == target) .withdrawn (releaseReserved n 1 s)
    else reject n f rejectTarget s

/-- WITHDRAW (R39). -/
def execWithdraw (n : Nat) (s : State) : Result := onNode n (taking n kindWithdraw oneEntry (withdrawAct n)) s

/-! ### RETURN (R22) -/

/-- R22: the loan that a RETURN names, by its state. -/
def returnMatched (n : Nat) (f : Frame) (id : LoanId) (l : Loan) (s : State) : State :=
  let late : Record := .returned id .ended l.endReason
  match l.state with
  | .active => decideEnd id.slot .returned (s.setLoan id.slot { l with returnTag := some f.tag })
  | .ended => freeSlot id.slot (reply n f late s)
  | .returning =>
    if l.returnTag.isNone then s.setLoan id.slot { l with returnTag := some f.tag } else reply n f late s
  | .ending =>
    if l.returnTag.isNone then s.setLoan id.slot { l with returnTag := some f.tag } else reply n f late s

def returnAct (n : Nat) (f : Frame) (s : State) : State :=
  if f.tag = 0 then reject n f rejectTag s
  else if s.tagPending n f.tag then reject n f rejectDup s
  else if f.body.length < 2 then reject n f (rejectLength f.body 2) s
  else
    let id := loanIdAt f.body 0
    match s.matchLoan (some n) id with
    | none => reply n f (.returned id .noLoan none) s
    | some l => returnMatched n f id l s

/-- RETURN (R22). -/
def execReturn (n : Nat) (s : State) : Result := onNode n (taking n kindReturn oneEntry (returnAct n)) s

/-! ### HOLD (R24) -/

def holdAct (n : Nat) (f : Frame) (s : State) : State :=
  if f.tag = 0 then reject n f rejectTag s
  else if f.body.length < 2 then reject n f (rejectLength f.body 2) s
  else
    let id := loanIdAt f.body 0
    match s.matchLoan (some n) id with
    | none => reply n f (.held id .noLoan none none) s
    | some l =>
      if l.state = .active then
        reply n f (.held id .ok (some l.holdLimit) none) (s.setLoan id.slot { l with idle := 0 })
      else reply n f (.held id .ended none l.endReason) s

/-- HOLD (R24). -/
def execHold (n : Nat) (s : State) : Result := onNode n (taking n kindHold oneEntry (holdAct n)) s

/-! ### QUERY (R25) -/

/-- R25: the LOANS entry of a slot, if it lists one for node `n`. -/
def State.loansEntry (s : State) (n k : Nat) : Option LoansEntry :=
  match s.loan k with
  | none => none
  | some l =>
    if l.borrower = n ∧ l.endReason ≠ some .linkLost then
      some { id := { slot := k, issue := (s.slot k).issue }, askedBay := l.askedBay, placedBay := l.placedBay,
             viaTwin := l.viaTwin, kind := l.kind, cls := l.cls, range := l.range, state := l.state,
             endReason := l.endReason, holdLimit := l.holdLimit, idle := l.idle, commands := l.commands,
             notice := l.notice }
    else none

def queryAct (n : Nat) (f : Frame) (s : State) : State :=
  if f.tag = 0 then reject n f rejectTag s
  else reply n f (.loans ((List.range Config.slots).filterMap (s.loansEntry n))) s

/-- QUERY (R25). -/
def execQuery (n : Nat) (s : State) : Result := onNode n (taking n kindQuery oneEntry (queryAct n)) s

end Sys2Proof.Machine
end

