-- ==== Sys2Proof/Machine/Commands.lean ====
section
/-! DEFINITION. The meanings of READ, WRITE, DATA, STREAM and CANCEL (04, 05). -/

namespace Sys2Proof.Machine

/-! ### Admission (R64 to R67) -/

/-- R64: the checks of the tag, which stand first. -/
def State.commandHeader (s : State) (n : Nat) (f : Frame) : Option Reject :=
  if f.tag = 0 then some rejectTag else if s.tagPending n f.tag then some rejectDup else none

/-- R65: the blocks first..first+blocks−1 lie inside the loan's range, or below the placed bay's capacity. -/
def State.blocksInside (s : State) (l : Loan) (first blocks : Nat) : Bool :=
  match l.range with
  | some r => r.first ≤ first && first + blocks ≤ r.last + 1
  | none => match (s.bay l.placedBay).capacity with
    | some c => first + blocks ≤ c
    | none => false

/-- R65: the status with which admission fails, first check that applies. -/
def State.admission (s : State) (n : Nat) (kind : CommandKind) (id : LoanId) (first blocks : Nat) : Option Status :=
  match s.matchLoan (some n) id with
  | none => some .noLoan
  | some l =>
    if l.state ≠ .active then some .ended
    else if kind = .write ∧ l.kind = .view then some .readOnly
    else if !s.blocksInside l first blocks then some .outside
    else if Config.loanRecords ≤ l.commands ∨ Config.nodeRecords ≤ s.recordCount n ∨
        Config.shelfRecords ≤ s.records.length then some .limit
    else none

/-- R61, R4, R46: a command record is made under the loan of its id. -/
def makeRecord (r : Command) (s : State) : State :=
  let s := { s with records := s.records ++ [r] }
  match s.loan r.loan.slot with
  | some l => s.setLoan r.loan.slot { l with commands := l.commands + 1, idle := 0 }
  | none => s

/-- A new record, with the fields common to every kind (R61). -/
def Command.fresh (n tag : Nat) (id : LoanId) (kind : CommandKind) (first count : Nat) : Command :=
  { node := n, tag, loan := id, kind, first, count, segSize := 0, total := 0, delivered := 0, segFirst := first
    state := .queued, held := 0, done := 0, nextIndex := 0, dataGap := 0, gapTimer := 0, stop := false, carry := 0
    closing := none, outcome := none, replied := false, gathered := [] }

/-- A record that begins QUEUED is handed to the port arbiter of the loan's placed bay (R61, R86). -/
def queueOnPlacedBay (r : Command) (s : State) : State :=
  match s.loan r.loan.slot with
  | some l => queueCommand l.placedBay r.loan.slot r.ref s
  | none => s

/-! ### READ (R64, R65, R66) -/

def readAct (n : Nat) (f : Frame) (s : State) : State :=
  match s.commandHeader n f with
  | some r => reject n f r s
  | none => match blocksForm f.body with
    | .error r => reject n f r s
    | .ok q => match s.admission n .read q.id q.first q.count with
      | some st => reply n f (.done st 0) s
      | none =>
        let r := Command.fresh n f.tag q.id .read q.first q.count
        queueOnPlacedBay r (makeRecord r s)

/-- READ (R65). -/
def execRead (n : Nat) (s : State) : Result := onNode n (taking n kindRead oneEntry (readAct n)) s

/-! ### STREAM (R86) -/

def streamAct (n : Nat) (f : Frame) (s : State) : State :=
  match s.commandHeader n f with
  | some r => reject n f r s
  | none => match streamForm f.body with
    | .error r => reject n f r s
    | .ok q => match s.admission n .stream q.id q.first q.total with
      | some st => reply n f (.streamEnd st 0) s
      | none =>
        let r := { Command.fresh n f.tag q.id .stream q.first (min q.segSize q.total) with
                     segSize := q.segSize, total := q.total }
        queueOnPlacedBay r (makeRecord r s)

/-- STREAM (R86). -/
def execStream (n : Nat) (s : State) : Result := onNode n (taking n kindStream oneEntry (streamAct n)) s

/-! ### WRITE (R66, R67) -/

/-- R66: the record of an accepted WRITE, GATHERING, with its buffers. -/
def acceptWrite (n : Nat) (f : Frame) (q : BlocksBody) (s : State) : State :=
  let r := { Command.fresh n f.tag q.id .write q.first q.count with
               state := .gathering, dataGap := (s.nodeEntry n).dataGap }
  lend r.ref q.count (makeRecord r s)

/-- The head frame of link `l` leaves the inbound queue. -/
def popHead (l : Nat) (s : State) : State := s.modLink l fun x => { x with inbound := x.inbound.tail, heldWrite := false }

/-- R66: a WRITE at the head, its reservation made. When the pool cannot give its buffers at once it stays at the head, its
reservation held, and the link joins the pool wait list. -/
def writeAct (n : Nat) (f : Frame) (s : State) : State :=
  match s.commandHeader n f with
  | some r => reject n f r (popHead n s)
  | none => match blocksForm f.body with
    | .error r => reject n f r (popHead n s)
    | .ok q => match s.admission n .write q.id q.first q.count with
      | some st => reply n f (.done st 0) (popHead n s)
      | none =>
        if s.poolGives q.count then acceptWrite n f q (popHead n s)
        else { s.modLink n (fun x => { x with heldWrite := true }) with
                 poolWait := s.poolWait ++ [{ who := .link n, count := q.count }] }

/-- The WRITE at the head of the node's queue, if its reservation can be made (R171). -/
def State.writeAtHead (s : State) (n : Nat) : Option Frame :=
  match (s.link n).inbound with
  | [] => none
  | f :: _ =>
    if f.kind = kindWrite ∧ (s.link n).presence ∧ !(s.link n).heldWrite ∧ s.canReserve n 1 then some f else none

/-- WRITE (R66). -/
def execWrite (n : Nat) (s : State) : Result :=
  onNode n (fun s => match s.writeAtHead n with
    | none => .next s
    | some f => .next (finish (writeAct n f (s.modLink n fun x => { x with reserved := x.reserved + 1 })))) s

/-- R67: the pool serves a waiting link; its held WRITE is checked again, and taken or answered. -/
def recheckWrite (n : Nat) (s : State) : State :=
  match (s.link n).inbound with
  | [] => s
  | f :: _ =>
    let t := popHead n s
    if s.tagPending n f.tag then reject n f rejectDup t
    else match blocksForm f.body with
      | .error r => reject n f r t
      | .ok q => match s.admission n .write q.id q.first q.count with
        | some st => reply n f (.done st 0) t
        | none => acceptWrite n f q t

/-! ### DATA (R68, R70) -/

/-- R68: a DATA frame for GATHERING write `r`, its body of the right length. -/
def gather (r : Command) (f : Frame) (s : State) : State :=
  if field f.body 0 2 = r.nextIndex then
    let r' := { r with gathered := r.gathered ++ [f.body.drop 2], nextIndex := r.nextIndex + 1, gapTimer := 0 }
    let s := s.modRecord r.ref fun _ => r'
    if r'.nextIndex = r.count then queueOnPlacedBay r' s else s
  else endDone r.ref .dataOrder 0 s

def dataAct (n : Nat) (f : Frame) (s : State) : State :=
  match s.record { node := n, tag := f.tag } with
  | none => s
  | some r => if r.state = .gathering ∧ f.body.length = dataBodyBytes then gather r f s else s

/-- DATA (R68). -/
def execData (n : Nat) (s : State) : Result := onNode n (taking n kindData noEntry (dataAct n)) s

/-! ### CANCEL (R77, R78, R92) -/

/-- R77: the CANCEL is taken without a reservation: its tag is not 0, its body is one byte, and its target tag names a
command record of the node. -/
def State.cancelNames (s : State) (n : Nat) (f : Frame) : Option Command :=
  if f.tag ≠ 0 ∧ f.body.length = 1 then s.record { node := n, tag := field f.body 0 1 } else none

/-- R78, R92: what a CANCEL does to the record it names. -/
def cancelRecord (r : Command) (s : State) : State :=
  let bay := match s.loan r.loan.slot with
    | some l => l.placedBay
    | none => Config.bays
  match r.kind, r.state with
  | .stream, .queued => endStream r.ref .cancelled (ringDrop bay r.ref s)
  | _, .queued => endDone r.ref .cancelled 0 (ringDrop bay r.ref s)
  | _, .gathering => endDone r.ref .cancelled 0 s
  | .stream, _ =>
    if r.replied || r.closing.isSome then s
    else s.modRecord r.ref fun r => { r with closing := some .cancelled }
  | _, _ => s

/-- R77: the answer to a CANCEL that fails the test. -/
def cancelReject (f : Frame) : Reject :=
  if f.tag = 0 then rejectTag else if f.body.length ≠ 1 then rejectLength f.body 1 else rejectTarget

/-- The entries that the CANCEL at the head of the node's queue needs (Table 9-2). -/
def State.cancelNeeds (s : State) (n : Nat) : Nat :=
  match (s.link n).inbound with
  | f :: _ => if (s.cancelNames n f).isSome then 0 else 1
  | [] => 1

def cancelAct (n : Nat) (f : Frame) (s : State) : State :=
  match s.cancelNames n f with
  | some r => cancelRecord r s
  | none => reject n f (cancelReject f) s

/-- CANCEL (R78). -/
def execCancel (n : Nat) (s : State) : Result :=
  onNode n (taking n kindCancel (fun _ => s.cancelNeeds n) (cancelAct n)) s

end Sys2Proof.Machine
end

