-- ==== Sys2Proof/Machine/Disk.lean ====
section
/-! DEFINITION. The meanings of the disks' answers and of the operation timer's expiries (04, 05, 07, 08). -/

namespace Sys2Proof.Machine

/-- A command that names bay `b` (00_scope.md 4.2). -/
def onBay (b : Nat) (act : State → Result) (s : State) : Result := if isBay b then act s else .refused .noSuchBay

/-- R125: an answer is the answer to the operation in progress when it carries that operation's number and the operation is
of the kind that gives it; an answer to an abandoned operation is discarded. -/
def State.answers (s : State) (b number : Nat) (p : DiskOp → Bool) : Bool :=
  (s.bay b).opNumber == number && (s.bay b).op.any p

def isSpinUp : DiskOp → Bool
  | .spinUp => true
  | _ => false
def isIdentify : DiskOp → Bool
  | .identify => true
  | _ => false
def isSpinDown : DiskOp → Bool
  | .spinDown => true
  | _ => false
/-- The operations whose silence is a fault of a READY or DRAINING bay (R131). -/
def isService : DiskOp → Bool
  | .readBlock _ => true
  | .writeBlock .. => true
  | .verifyRun .. => true
  | _ => false

/-- R126: the operation in progress is of a kind, and its timer has reached its time limit. -/
def State.expired (s : State) (b : Nat) (p : DiskOp → Bool) : Bool :=
  (s.bay b).op.any p && (s.bay b).opLimit ≤ (s.bay b).opTimer

/-! ### Spin-up and spin-down (R129, R130, R139) -/

/-- SPIN_UP_READY (R129): SPIN UP answers ready, and IDENTIFY is issued. -/
def execSpinUpReady (b number : Nat) (s : State) : Result :=
  onBay b (fun s => .next (if s.answers b number isSpinUp then issueOp b .identify s else s)) s

/-- R130: the bay becomes READY with a capacity of 1 or more. -/
def becomeReady (b capacity : Nat) (s : State) : State :=
  let s := s.modBay b fun x =>
    { x.opOver.clearArbiter with
        capacity := some capacity
        weak := x.weak.filter fun n => n < capacity
        cursor := if capacity ≤ x.cursor then 0 else x.cursor
        head := 0, faultCause := none, upkeepDue := false, upkeepTimer := upkeepStart (s.profile b) }
  (setBayState b .ready s).oweScan

/-- R129: IDENTIFY ended with capacity 0 or without an answer; the bay faults BAD_IDENTIFY, its capacity unknown. -/
def badIdentify (b : Nat) (s : State) : State := spinFault b .badIdentify (s.modBay b fun x => { x with capacity := none })

/-- IDENTIFY_ANSWER (R130). -/
def execIdentifyAnswer (b number capacity : Nat) (s : State) : Result :=
  onBay b (fun s =>
    if !isCapacity capacity then .refused .outOfRange
    else if s.answers b number isIdentify then
      .next (finish (if capacity = 0 then badIdentify b s else becomeReady b capacity s))
    else .next s) s

/-- SPIN_UP_TIMEOUT (R129). -/
def execSpinUpTimeout (b : Nat) (s : State) : Result :=
  onBay b (fun s => .next (if s.expired b isSpinUp then finish (spinFault b .noSpin s) else s)) s

/-- IDENTIFY_TIMEOUT (R129). -/
def execIdentifyTimeout (b : Nat) (s : State) : Result :=
  onBay b (fun s => .next (if s.expired b isIdentify then finish (badIdentify b s) else s)) s

/-- SPIN_DOWN_DONE (R139). -/
def execSpinDownDone (b number : Nat) (s : State) : Result :=
  onBay b (fun s => .next (if s.answers b number isSpinDown then enterReleased b s else s)) s

/-- SPIN_DOWN_TIMEOUT (R139). -/
def execSpinDownTimeout (b : Nat) (s : State) : Result :=
  onBay b (fun s => .next (if s.expired b isSpinDown then enterReleased b s else s)) s

/-- OPERATION_NO_ANSWER (R131). -/
def execOperationNoAnswer (b : Nat) (s : State) : Result :=
  onBay b (fun s =>
    .next (if s.expired b isService ∧ ((s.bay b).state = .ready ∨ (s.bay b).state = .draining) then
      finish (faultHandling b .noAnswer s) else s)) s

/-! ### READ_BLOCK_ANSWER (R71, R74, R58, R89, R91, R155) -/

/-- R71: a READ or stream segment, one block of which answered OK with `data`. -/
def readBlockOk (b : Nat) (ref : CommandRef) (data : Block) (s : State) : State :=
  match s.record ref with
  | none => endService b s
  | some r =>
    let block := r.segFirst + r.done
    let index := block - r.first
    let s := deliver ref { tag := r.tag, block, index, bytes := data } (s.modRecord ref fun r => { r with done := r.done + 1 })
    if r.done + 1 = r.count then
      endReading ref (if r.kind = .read then some .ok else none) (endService b s)
    else if r.stop then
      endReading ref (if r.kind = .read then some .reclaimed else none) (endService b s)
    else issueOp b (.readBlock (block + 1)) s

/-- R155: a copy chunk read, one block of which answered OK with `data`. -/
def chunkReadOk (b c : Nat) (data : Block) (s : State) : State :=
  let ch := s.channel c
  let filled := ch.filled ++ [data]
  let s := s.modChannel c fun x => { x with filled := filled }
  if filled.length = ch.chunkCount then
    let s := endService b s
    match ch.endStatus, s.twin ch.twin with
    | none, some w => (s.modChannel c fun x => { x with phase := .pending }).modBay w.target fun x => { x with chunkWrite := some c }
    | _, _ => s.modChannel c fun x => { x with phase := .none }
  else if ch.endStatus = some .aborted then endService b (s.modChannel c fun x => { x with phase := .none })
  else issueOp b (.readBlock (ch.chunkFirst + filled.length)) s

/-- R155, R156: a media error leaves the channel without a unit, its copy to end ABORTED. -/
def chunkMediaError (b c : Nat) (s : State) : State :=
  endService b (s.modChannel c fun x => { x with phase := .none, endStatus := some .aborted })

/-- The answer to the READ BLOCK of block `n` in progress on bay `b` (R115, R125). -/
def readAnswered (b n : Nat) (outcome : ReadOutcome) (s : State) : State :=
  let s := s.modBay b fun x => { x.opOver with head := n + 1 }
  match outcome with
  | .ok data => match (s.bay b).service with
    | some (.command ref) => readBlockOk b ref data s
    | some (.chunkRead c) => chunkReadOk b c data s
    | _ => endService b s
  | .mediaError =>
    let s := weakJoin b n s
    match (s.bay b).service with
    | some (.command ref) => endReading ref (some .mediaError) (endService b s)
    | some (.chunkRead c) => chunkMediaError b c s
    | _ => endService b s

/-- READ_BLOCK_ANSWER (R71). -/
def execReadBlockAnswer (b number : Nat) (outcome : ReadOutcome) (s : State) : Result :=
  onBay b (fun s =>
    if !outcome.wellFormed then .refused .outOfRange
    else match (s.bay b).op with
      | some (.readBlock n) =>
        if (s.bay b).opNumber = number then .next (finish (readAnswered b n outcome s)) else .next s
      | _ => .next s) s

/-! ### WRITE_BLOCK_ANSWER (R75, R58, R145, R156) -/

/-- R75: a WRITE, one block of which answered OK. -/
def writeBlockOk (b : Nat) (ref : CommandRef) (s : State) : State :=
  match s.record ref with
  | none => endService b s
  | some r =>
    let r' := { r with done := r.done + 1 }
    let s := s.modRecord ref fun _ => r'
    if r'.done = r.count then endWriting ref .ok (endService b s)
    else if r.stop then endWriting ref .reclaimed (endService b s)
    else issueOp b r'.nextOp s

/-- R156: the last block of a chunk has been written. -/
def chunkWritten (c : Nat) (s : State) : State :=
  let ch := s.channel c
  let s := giveBackChannel c s
  let s := s.modTwin ch.twin fun w => { w with next := w.next + ch.chunkCount }
  let s := s.modChannel c fun x => { x with phase := .none }
  match ch.endStatus, s.twin ch.twin with
  | none, some w =>
    if w.last < w.next then
      let s := (s.setTwin ch.twin (some { w with state := .live, channel := none })).setChannel c Channel.free
      (occur .copy ch.twin .done s).oweScan
    else queueChunkRead c s
  | _, _ => s

/-- R156: a copy chunk write, block `n` of which answered OK. -/
def chunkWriteOk (b c n : Nat) (s : State) : State :=
  let ch := s.channel c
  let i := n + 1 - ch.chunkFirst
  if i = ch.chunkCount then chunkWritten c (endService b s)
  else if ch.endStatus = some .aborted then endService b (s.modChannel c fun x => { x with phase := .none })
  else issueOp b (.writeBlock (n + 1) (ch.filled.getD i [])) s

/-- The answer to the WRITE BLOCK of block `n` in progress on bay `b` (R115, R125, R145). -/
def writeAnswered (b n : Nat) (outcome : WriteOutcome) (s : State) : State :=
  let s := s.modBay b fun x => { x.opOver with head := n + 1 }
  match outcome with
  | .ok =>
    let s := weakRemove b (fun m => m == n) s
    match (s.bay b).service with
    | some (.command ref) => writeBlockOk b ref s
    | some (.chunkWrite c) => chunkWriteOk b c n s
    | _ => endService b s
  | .mediaError =>
    let s := weakJoin b n s
    match (s.bay b).service with
    | some (.command ref) => endWriting ref .mediaError (endService b s)
    | some (.chunkWrite c) => chunkMediaError b c s
    | _ => endService b s

/-- WRITE_BLOCK_ANSWER (R75). -/
def execWriteBlockAnswer (b number : Nat) (outcome : WriteOutcome) (s : State) : Result :=
  onBay b (fun s => match (s.bay b).op with
    | some (.writeBlock n _) =>
      if (s.bay b).opNumber = number then .next (finish (writeAnswered b n outcome s)) else .next s
    | _ => .next s) s

/-! ### VERIFY_RUN_ANSWER (R143 to R145) -/

/-- R143: the run first..first+count−1 is answered; `past` is the block after the last block verified or found bad. On a MEDIA
ERROR the verified blocks leave the weak list before the bad one joins it: DESIGN CHOICE (log entry 36). The upkeep timer
starts again also where upkeep is due already, as after a reset: DESIGN CHOICE (log entry 37). -/
def verifyAnswered (b first count : Nat) (outcome : VerifyOutcome) (s : State) : State :=
  let past := match outcome with
    | .ok => first + count
    | .mediaError n => n + 1
  let verifiedEnd := match outcome with
    | .ok => first + count
    | .mediaError n => n
  let s := weakRemove b (fun m => first ≤ m && m < verifiedEnd) s
  let s := match outcome with
    | .ok => s
    | .mediaError n => weakJoin b n s
  s.modBay b fun x =>
    { x.opOver with head := past, cursor := if x.capacity = some past then 0 else past
                    upkeepTimer := upkeepStart (s.profile b), service := none }

/-- A MEDIA ERROR names a block of the run (Table 7-5). -/
def withinRun (first count : Nat) : VerifyOutcome → Bool
  | .ok => true
  | .mediaError n => first ≤ n && n < first + count

/-- VERIFY_RUN_ANSWER (R143). -/
def execVerifyRunAnswer (b number : Nat) (outcome : VerifyOutcome) (s : State) : Result :=
  onBay b (fun s => match (s.bay b).op with
    | some (.verifyRun first count) =>
      if (s.bay b).opNumber ≠ number then .next s
      else if withinRun first count outcome then .next (finish (verifyAnswered b first count outcome s))
      else .refused .outOfRange
    | _ => .next s) s

end Sys2Proof.Machine
end

