-- ==== Sys2Proof/Machine/Arbiter.lean ====
section
/-! DEFINITION. The part's own follow-on steps: DISPATCH_POINT, POOL_SERVE, DATA_PLACE_WAITING, LOAN_NOTICE_PLACE,
NOTICE_PLACE, SPIN_ADMIT, SEGMENT_BOUNDARY, HELD_MOVE_CARRY_OUT, DRAIN_COMPLETE and COPY_END. Each acts when its
condition holds and changes nothing when it does not (log entries 1 and 3). -/

namespace Sys2Proof.Machine

/-! ### Cost and the ring step (R106 to R111) -/

/-- R106: the weight of a class. -/
def Cls.weight : Cls → Nat
  | .rush => 4
  | .normal => 2
  | .bulk => 1

/-- R108: the surcharge for a distance, with the profile's seek span exponent and seek cap. -/
def surcharge (p : Profile) (distance : Nat) : Nat :=
  if distance = 0 then 0 else min p.seekCap (1 + distance / 2 ^ p.seekExponent)

/-- R108: base and surcharge of a command of `count` blocks at `first`. -/
def costOf (p : Profile) (head : Nat) (isWrite : Bool) (first count : Nat) : Nat :=
  (if isWrite then 2 * count else count) + surcharge p ((first - head) + (head - first))

/-- R108, R116: the cost of a member's head command on bay `b`. -/
def State.memberCost (s : State) (b : Nat) (m : Member) : Nat :=
  let p := s.profile b
  let head := (s.bay b).head
  match m.who with
  | .channel c => costOf p head false (s.channel c).chunkFirst (s.channel c).chunkCount
  | .loan _ => match m.queued.head?.bind s.record with
    | some r => costOf p head (r.kind == .write) (if r.kind = .write then r.first else r.segFirst) r.count
    | none => 0

/-- A member whose head command leaves its queued commands; none when that was its last (R101, R109). -/
def Member.afterChoice (m : Member) : Option Member :=
  match m.queued.tail with
  | [] => none
  | q => some { m with queued := q }

/-- R106 to R111: the ring step. The ring is listed from the pointer member on. It answers the member whose head command
is dispatched, as it stood, and the ring after it, or none for an empty ring; `fuel` bounds the visits. -/
def ringStep (quantum : Nat) (cost : Member → Nat) : Nat → List Member → Option (Member × List Member)
  | 0, _ => none
  | _, [] => none
  | fuel + 1, m :: rest =>
    let credit : Int := if m.visited then m.credit else m.credit + (m.cls.weight * quantum : Nat)
    let c : Int := cost m
    if c ≤ credit then
      some (m, match m.afterChoice with
        | some m' => { m' with credit := credit - c, visited := true } :: rest
        | none => rest)
    else if m.cls = .rush ∧ 0 ≤ credit then
      some (m, match m.afterChoice with
        | some m' => rest ++ [{ m' with credit := credit - c, visited := false }]
        | none => rest)
    else ringStep quantum cost fuel (rest ++ [{ m with credit := credit, visited := false }])

/-- R111: a bound of the visits. With a quantum of 1 or more the pointer member gains at least 1 at each visit of its own but a
continued one, so it dispatches within that many rounds if no other does first (`ringStep_isSome`). -/
def ringBound (cost : Member → Nat) : List Member → Nat
  | [] => 0
  | m :: rest => (rest.length + 1) * ((cost m - m.credit).toNat + 2)

/-- R106: the quantum of bay `b`, 1..64. DESIGN CHOICE (log entry 17): a quantum of 0, which only an image that no SAVE has
made can hold, counts as a free value of 1..64. -/
def State.quantum (s : State) (b : Nat) : Nat :=
  if (s.profile b).quantum = 0 then 1 + Config.zeroQuantum b % 64 else (s.profile b).quantum

/-- R111: the ring's choice on bay `b`: the member whose head command is dispatched, as it stood, and the ring after it. -/
def State.ringChoice (s : State) (b : Nat) : Option (Member × List Member) :=
  ringStep (s.quantum b) (s.memberCost b) (ringBound (s.memberCost b) (s.bay b).ring) (s.bay b).ring

/-- The unit of a member's head command. -/
def Member.unit (m : Member) : DiskUnit :=
  match m.who with
  | .channel c => .chunkRead c
  | .loan _ => match m.queued with
    | ref :: _ => .command ref
    | [] => .lost

/-- R113, R71, R75, R154: the chosen unit starts, or waits for its buffers. -/
def dispatchUnit (b : Nat) (u : DiskUnit) (s : State) : State :=
  let wait (n : Nat) (s : State) : State :=
    { s.modBay b (fun x => { x with chosen := some u }) with
        poolWait := s.poolWait ++ [{ who := .bay b, count := n }] }
  match u with
  | .command ref => match s.record ref with
    | some r =>
      if r.kind = .write then startUnit b u s
      else if s.poolGives r.count then startUnit b u (lend ref r.count s)
      else wait r.count (s.modRecord ref fun r => { r with state := .poolWait })
    | none => s
  | .chunkRead c =>
    let n := (s.channel c).chunkCount
    if s.poolGives n then startUnit b u (lendChannel c n s)
    else wait n (s.modChannel c fun x => { x with phase := .chosen })
  | _ => startUnit b u s

/-- R142: the verify run is dispatched from the upkeep cursor. -/
def dispatchVerify (b : Nat) (s : State) : State :=
  let x := s.bay b
  let count := min (s.profile b).upkeepLength (x.capacity.getD 0 - x.cursor)
  issueOp b (.verifyRun x.cursor count)
    (s.modBay b fun x => { x with upkeepDue := false, deferral := 0, service := some .verify })

/-- R102: a dispatch point is due on bay `b`: READY, no operation in service, no chosen unit waiting for buffers; a move
held by a command that has left the disk is carried out first (R21, log entry 12). -/
def State.mayDispatch (s : State) (b : Nat) : Bool :=
  (s.bay b).state == .ready && (s.bay b).service.isNone && (s.bay b).op.isNone && (s.bay b).chosen.isNone &&
  !(List.range Config.slots).any fun k => (s.loan k).any (Loan.placedOn · b) && s.moveDue k

/-- R104: due upkeep gives way to RUSH work. -/
def Bay.defers (x : Bay) : Bool := x.upkeepDue && x.ring.any (fun m => m.cls == .rush) && x.deferral < 3

/-- R103: upkeep, then the pending chunk write, then the ring, which makes a choice whenever it is not empty (R111). -/
def dispatch (b : Nat) (s : State) : State :=
  if (s.bay b).upkeepDue ∧ !(s.bay b).defers then dispatchVerify b s
  else
    let s := if (s.bay b).defers then s.modBay b fun x => { x with deferral := x.deferral + 1 } else s
    match (s.bay b).chunkWrite with
    | some c => startUnit b (.chunkWrite c) (s.modBay b fun x => { x with chunkWrite := none })
    | none => match s.ringChoice b with
      | some (m, ring) => dispatchUnit b m.unit (s.modBay b fun x => { x with ring := ring })
      -- the ring is empty, and only then (`ringChoice_eq_none_iff`)
      | none => s

/-- DISPATCH_POINT (R103). -/
def execDispatchPoint (b : Nat) (s : State) : Result :=
  onBay b (fun s => .next (if s.mayDispatch b then dispatch b s else s)) s

/-! ### POOL_SERVE (R82, R67, R113) -/

/-- R82, R113: a bay's chosen unit takes its buffers and becomes the operation in service. -/
def serveBay (b n : Nat) (s : State) : State :=
  match (s.bay b).chosen with
  | some (.command ref) => startUnit b (.command ref) (lend ref n s)
  | some (.chunkRead c) => startUnit b (.chunkRead c) (lendChannel c n s)
  | _ => s

/-- R82: serve the list from its head while the free count covers the head waiter's count. -/
def servePool : Nat → State → State
  | 0, s => s
  | fuel + 1, s =>
    match s.poolWait with
    | [] => s
    | w :: rest =>
      if s.poolFree < w.count then s
      else
        let t : State := { s with poolWait := rest }
        servePool fuel (match w.who with
          | .bay b => serveBay b w.count t
          | .link n => recheckWrite n t)

/-- POOL_SERVE (R82). -/
def execPoolServe (s : State) : Result := .next (finish (servePool s.poolWait.length s))

/-! ### Outbound entries (R72, R18, R185) -/

/-- R72: the oldest waiting DATA record of the node is placed. -/
def placeWaiting (n : Nat) (s : State) : State :=
  match (s.link n).waitingData with
  | [] => s
  | w :: rest =>
    let ref : CommandRef := { node := n, tag := w.tag }
    let s := s.modLink n fun x => { x with waitingData := rest }
    settleRead ref (countDelivered ref (place n { tag := w.tag, record := .data w.block w.index w.bytes } s))

/-- DATA_PLACE_WAITING (R72). -/
def execDataPlaceWaiting (n : Nat) (s : State) : Result :=
  onNode n (fun s => .next (if s.hasRoom n then finish (placeWaiting n s) else s)) s

/-- The lowest slot of the node's loans with a pending notice (R18). -/
def State.firstNotice (s : State) (n : Nat) : Option Nat := (List.range Config.slots).find? (s.noticeOf n)

/-- LOAN_NOTICE_PLACE (R18). -/
def execLoanNoticePlace (n : Nat) (s : State) : Result :=
  onNode n (fun s =>
    .next (if s.roomForNotice n then match s.firstNotice n with
      | some k => finish (placeLoanNotice k s)
      | none => s
    else s)) s

/-- R185: place the NOTICE of a kind and disarm the kind. -/
def placeNotice (k : NoticeKind) (s : State) : State :=
  let n := s.notices.get k
  let s := place 0 { tag := 0, record := .notice k n.count n.subject n.status } s
  { s with notices := s.notices.set k { n with pending := false, count := 0, armed := false } }

/-- NOTICE_PLACE (R185). -/
def execNoticePlace (s : State) : Result :=
  .next (if s.hasRoom 0 then match s.notices.first with
    | some k => placeNotice k s
    | none => s
  else s)

/-! ### SPIN_ADMIT (R128, R129) -/

/-- R128, R129: admit the bay at the head of the queue: it enters SPINNING and SPIN UP is issued. -/
def admitBay (b : Nat) (s : State) : State :=
  (issueOp b .spinUp (setBayState b .spinning s)).modBay b fun x => { x with powerOnSpin := false }

/-- R128: admit from the head while fewer than G bays are SPINNING. -/
def admitFrom : List Nat → State → State
  | [], s => s
  | b :: rest, s =>
    if s.spinningCount < s.settings.spinGroup then admitFrom rest (admitBay b { s with spinQueue := rest }) else s

/-- SPIN_ADMIT (R128). -/
def execSpinAdmit (s : State) : Result := .next (admitFrom s.spinQueue s)

/-! ### SEGMENT_BOUNDARY (R87) -/

/-- R87: the present segment of the stream has finished its disk work, and its last DATA record has been placed. A held move
of its loan that is due is carried out first, so that the next segment joins the new bay's ring (R94, log entry 12). -/
def State.atBoundary (s : State) (r : Command) : Bool :=
  r.kind == .stream && r.state == .delivering && !r.replied && !s.dataWaits r.ref && !s.moveDue r.loan.slot

/-- R87 cases 3 and 5: the next segment. -/
def nextSegment (r : Command) (count : Nat) (s : State) : State :=
  queueOnPlacedBay r
    (s.modRecord r.ref fun r => { r with segFirst := r.first + r.delivered, count := count, done := 0, carry := 0 })

/-- R87: the decision at a boundary, first case that applies. -/
def boundary (r : Command) (s : State) : State :=
  if r.outcome = some .mediaError then endStream r.ref .mediaError s
  else match r.closing with
    | some st => endStream r.ref st s
    | none =>
      if 0 < r.carry then nextSegment r r.carry s
      else if r.delivered = r.total then endStream r.ref .ok s
      else nextSegment r (min r.segSize (r.total - r.delivered)) s

/-- SEGMENT_BOUNDARY (R87). -/
def execSegmentBoundary (n t : Nat) (s : State) : Result :=
  onNode n (fun s =>
    if !isTag t then .refused .outOfRange
    else match s.record { node := n, tag := t } with
      | some r => .next (if s.atBoundary r then finish (boundary r s) else s)
      | none => .next s) s

/-! ### HELD_MOVE_CARRY_OUT (R21, R166) -/

/-- R21, R166: a held move whose command has left POOL_WAIT and IN_SERVICE. -/
def carryOutHeld (k : Nat) (m : HeldMove) (s : State) : State :=
  if (s.bay m.bay).state = .ready then carryOutMove k m.bay m.via s else decideEnd k m.reason s

/-- HELD_MOVE_CARRY_OUT (R21). -/
def execHeldMoveCarryOut (k : Nat) (s : State) : Result :=
  if !isSlot k then .refused .noSuchSlot
  else .next (match s.loan k with
    | some l => match l.move with
      | some m => if s.moveDue k then finish (carryOutHeld k m s) else s
      | none => s
    | none => s)

/-! ### DRAIN_COMPLETE (R138) and COPY_END (R157) -/

/-- DRAIN_COMPLETE (R138). -/
def execDrainComplete (b : Nat) (s : State) : Result := onBay b (fun s => .next (drainTest b s)) s

/-- COPY_END (R157): the channel is busy, its copy's end is decided, and it has no unit left. -/
def execCopyEnd (c : Nat) (s : State) : Result :=
  if !isChannel c then .refused .noSuchChannel
  else
    let ch := s.channel c
    .next (if ch.busy ∧ ch.endStatus.isSome ∧ ch.phase = .none then finish (endCopy c s) else s)

end Sys2Proof.Machine
end

