-- ==== Sys2Proof/Machine/Links.lean ====
section
/-! DEFINITION. The meanings of the link events: frames that arrive or are discarded, frames of no known kind, records
sent, the far ready line, and the presence lines (09). -/

namespace Sys2Proof.Machine

/-- A command that names link `l`: 0 the supervisor link, 1..16 the node links (00_scope.md 4.2). -/
def onLink (l : Nat) (act : State → Result) (s : State) : Result := if isLink l then act s else .refused .noSuchLink

/-! ### Frames in (R169, R170, R174) -/

/-- UNKNOWN_KIND_FRAME (R174): a head frame of a kind not taken on its link is answered by the link interface. -/
def execUnknownKindFrame (l : Nat) (s : State) : Result :=
  onLink l (fun s => match (s.link l).inbound with
    | [] => .next s
    | f :: _ =>
      if kindTakenOn l f.kind then .next s
      else taking l f.kind oneEntry (fun f s => reject l f rejectKind s) s) s

/-- R169, R170: a frame that arrives enters the tail of the inbound queue when that holds fewer than 8 frames. -/
def Link.enter (x : Link) (f : Frame) : Link :=
  if x.inbound.length < Config.inbound then { x with inbound := x.inbound ++ [f] } else x

/-- R169: bytes received on a link whose presence is high; with presence low the receiver is held in hunting. -/
def Link.receive (x : Link) (bytes : List Byte) : Link :=
  if x.presence then
    let got := receiveBytes x.receiver bytes
    got.2.foldl Link.enter { x with receiver := got.1 }
  else { x with receiver := .hunting }

/-- FRAME_ARRIVE (R169), with the bytes received. -/
def execFrameArrive (l : Nat) (bytes : List Byte) (s : State) : Result :=
  onLink l (fun s => .next (s.modLink l fun x => x.receive bytes)) s

/-- R169: the bytes up to the last byte of LENGTH that the receiver has not yet read of a frame with this LENGTH. -/
def Receiver.untilLength (length : Nat) : Receiver → List Byte
  | .hunting => 0xA5#8 :: be16 length
  | .inFrame [] => be16 length
  | .inFrame [high] => if high = byte (length / 256) then [byte length] else []
  | .inFrame _ => []

/-- OVERLONG_FRAME_DISCARD (R169): the receiver reads a LENGTH above 4104 after SYNC. -/
def execOverlongFrameDiscard (l length : Nat) (s : State) : Result :=
  onLink l (fun s =>
    if Config.bodyMax < length ∧ length ≤ 65535 then
      .next (s.modLink l fun x => x.receive (x.receiver.untilLength length))
    else .refused .outOfRange) s

/-! ### Records out (R173, R73, R89) -/

/-- The command record that a placed DATA record belongs to: its tag is the command's (9.6.4). -/
def OutRecord.dataOf (l : Nat) (o : OutRecord) : Option CommandRef :=
  match o.record with
  | .data .. => if l = 0 then none else some { node := l, tag := o.tag }
  | _ => none

/-- R73, R61: a buffer returns to the pool as its DATA record is sent, and the command record may be freed. -/
def dataSent (o : Option CommandRef) (s : State) : State :=
  match o with
  | some ref => freeIfDone ref (giveBack ref 1 s)
  | none => s

/-- R173: the first placed record has been sent; the next is begun when the far ready line is high. -/
def recordSent (l : Nat) (farReady : Bool) (s : State) : State :=
  match (s.link l).placed with
  | [] => s
  | o :: rest =>
    dataSent (o.dataOf l) (s.modLink l fun x =>
      { x with placed := rest, farReady := farReady, sending := farReady && !rest.isEmpty })

/-- RECORD_SENT (R173). `farReady` is the far ready line as the link tests it before it begins the next record: now, or,
with none placed, when one is (log entry 7). -/
def execRecordSent (l : Nat) (farReady : Bool) (s : State) : Result :=
  onLink l (fun s => .next (if (s.link l).sending then finish (recordSent l farReady s) else s)) s

/-- R173: the far ready line has risen, and the sending of a placed record begins. With none placed, the line may have fallen
again when the link next tests it (log entry 7). -/
def Link.rise (l : Nat) (x : Link) : Link := { x with sending := !x.placed.isEmpty || x.sending }.forgetLine l

/-- FAR_READY_RISE (R173). -/
def execFarReadyRise (l : Nat) (s : State) : Result := onLink l (fun s => .next (s.modLink l (Link.rise l))) s

/-! ### Presence (R175 to R177) -/

/-- R175, R177: presence falls; both queues are emptied, every reservation is dropped, a record being sent is abandoned
and the receiver is held in hunting. -/
def Link.lose (x : Link) : Link :=
  { x with presence := false, receiver := .hunting, inbound := [], placed := [], reserved := 0, sending := false,
           heldWrite := false, waitingData := [] }

/-- R175 step 3, R73, R84: the buffers of the node's placed and waiting DATA records return to the pool. -/
def returnQueued (n : Nat) (x : Link) (s : State) : State :=
  let placed := x.placed.filterMap (OutRecord.dataOf n)
  let waiting : List CommandRef := x.waitingData.map fun w => { node := n, tag := w.tag }
  (placed ++ waiting).foldl (fun s ref => giveBack ref 1 s) s

/-- R175 step 5, R15, R41, R84: the node's wait entries are removed and its loans end LINK_LOST, lowest slot first. -/
def endNode (n : Nat) (s : State) : State :=
  let s := removeWaits (fun e => e.node == n) .withdrawn s
  (s.eachSlot fun k s => match s.loan k with
    | some l => if l.borrower = n then decideEnd k .linkLost s else s
    | none => s).oweScan

/-- R175: the link-lost procedure of node link `n`. -/
def linkLost (n : Nat) (s : State) : State :=
  let x := s.link n
  endNode n (leavePool (.link n) (returnQueued n x (s.setLink n x.lose)))

/-- NODE_PRESENCE_FALL (R175). -/
def execNodePresenceFall (n : Nat) (s : State) : Result :=
  onNode n (fun s => .next (if (s.link n).presence then finish (linkLost n s) else s)) s

/-- R176: presence rises on a link, with the far ready line as the link tests it (log entry 7). -/
def Link.regain (farReady : Bool) (x : Link) : Link := { x with presence := true, farReady := farReady, receiver := .hunting }

/-- NODE_PRESENCE_RISE (R176). -/
def execNodePresenceRise (n : Nat) (farReady : Bool) (s : State) : Result :=
  onNode n (fun s =>
    .next (if (s.link n).presence then s
      else place n { tag := 0, record := .restarted n .presence } (s.modLink n (Link.regain farReady)))) s

/-- R177: a SAVE in progress runs on, its reservation dropped. -/
def dropSaveTag (s : State) : State := { s with saving := s.saving.map fun v => { v with tag := none } }

/-- SUPERVISOR_PRESENCE_FALL (R177). -/
def execSupervisorPresenceFall (s : State) : Result :=
  .next (if (s.link 0).presence then dropSaveTag (s.modLink 0 Link.lose) else s)

/-- SUPERVISOR_PRESENCE_RISE (R177). -/
def execSupervisorPresenceRise (farReady : Bool) (s : State) : Result :=
  .next (if (s.link 0).presence then s else s.modLink 0 (Link.regain farReady))

end Sys2Proof.Machine
end

