-- ==== Sys2Proof/Machine/Timers.lean ====
section
/-! DEFINITION. The clock: what a tick advances, and the expiries of the idle clock, the gap timer and the upkeep timer
(03, 04, 07). A timer at its limit waits there for its expiry's command (log entry 26). -/

namespace Sys2Proof.Machine

/-! ### TICK (R45, R69, R126, R141, R186) -/

/-- R45: the idle clock of an ACTIVE loan without a command record advances, up to its hold limit. -/
def Loan.tick (l : Loan) : Loan :=
  if l.state = .active ∧ l.commands = 0 ∧ l.idle < l.holdLimit then { l with idle := l.idle + 1 } else l

def Slot.tick (k : Slot) : Slot := { k with loan := k.loan.map Loan.tick }

/-- R69: the gap timer of a GATHERING write counts, up to its data gap. -/
def Command.tick (r : Command) : Command :=
  if r.state = .gathering ∧ r.gapTimer < r.dataGap then { r with gapTimer := r.gapTimer + 1 } else r

/-- R141: a running upkeep timer counts the seconds since its own start (Table 7-1), up to its period. DEDUCED (log entry 8):
each is 100 ticks (00_scope.md 4.1). -/
def UpkeepTimer.tick (t : UpkeepTimer) : UpkeepTimer :=
  if t.seconds < t.period then
    if t.ticks + 1 < Config.ticksPerSecond then { t with ticks := t.ticks + 1 }
    else { t with seconds := t.seconds + 1, ticks := 0 }
  else t

/-- R126, R141: the operation timer of an operation in progress counts, up to its time limit, and so does a running upkeep
timer. -/
def Bay.tick (x : Bay) : Bay :=
  { x with opTimer := if x.op.isSome ∧ x.opTimer < x.opLimit then x.opTimer + 1 else x.opTimer
           upkeepTimer := x.upkeepTimer.map UpkeepTimer.tick }

/-- R186: the ticks of a save in progress, up to the 50 within which it completes. -/
def Save.tick (v : Save) : Save := { v with ticks := min 50 (v.ticks + 1) }

/-- One tick of every running timer. -/
def tickState (s : State) : State :=
  { s with
    loans := s.loans.map Slot.tick
    records := s.records.map Command.tick
    bays := s.bays.map Bay.tick
    saving := s.saving.map Save.tick }

/-- TICK (R45). -/
def execTick (s : State) : Result := .next (tickState s)

/-! ### Expiries -/

/-- R48: the loan's idle clock has reached its hold limit. -/
def Loan.expired (l : Loan) : Bool := l.state == .active && l.commands == 0 && l.holdLimit ≤ l.idle

/-- IDLE_CLOCK_EXPIRY (R48). -/
def execIdleClockExpiry (k : Nat) (s : State) : Result :=
  if !isSlot k then .refused .noSuchSlot
  else .next (match s.loan k with
    | some l => if l.expired then finish (decideEnd k .holdExpired s) else s
    | none => s)

/-- R69: the write's gap timer has reached its data gap. -/
def Command.gapExpired (r : Command) : Bool := r.state == .gathering && r.dataGap ≤ r.gapTimer

/-- DATA_GAP_EXPIRY (R69). -/
def execDataGapExpiry (n t : Nat) (s : State) : Result :=
  onNode n (fun s =>
    if !isTag t then .refused .outOfRange
    else .next (match s.record { node := n, tag := t } with
      | some r => if r.gapExpired then finish (endDone r.ref .dataLate 0 s) else s
      | none => s)) s

/-- R141: a running upkeep timer has reached its period. -/
def UpkeepTimer.expired (t : UpkeepTimer) : Bool := t.period ≤ t.seconds

/-- UPKEEP_TIMER_EXPIRY (R141). -/
def execUpkeepTimerExpiry (b : Nat) (s : State) : Result :=
  onBay b (fun s =>
    .next (if (s.bay b).upkeepTimer.any UpkeepTimer.expired then
      s.modBay b fun x => { x with upkeepTimer := none, upkeepDue := true } else s)) s

end Sys2Proof.Machine
end

