-- ==== Sys2Proof/Machine/Bays.lean ====
section
/-! DEFINITION. The meanings of the bay lines' events: the presence line and the release button (07). -/

namespace Sys2Proof.Machine

/-- R123: presence has risen in EMPTY; an enabled bay enters SPIN_WAIT, a disabled one stays EMPTY. -/
def seated (b : Nat) (s : State) : State :=
  if (s.profile b).enabled then enterSpinWait b s else s.modBay b fun x => { x with faultCause := none }

/-- BAY_PRESENCE_RISE (R123). -/
def execBayPresenceRise (b : Nat) (s : State) : Result :=
  onBay b (fun s =>
    .next (if (s.bay b).presence then s
      else
        let s := s.modBay b fun x => { x with presence := true }
        if (s.bay b).state = .empty then seated b s else s)) s

/-- R124: the entry into EMPTY without fault handling. -/
def enterEmpty (b : Nat) (s : State) : State := setBayState b .empty (s.modBay b fun x => x.emptied none)

/-- R124, R38: the entry into EMPTY from SPIN_WAIT or SPINNING; the wait entries on the bay are refused NO_BAY. -/
def pulledAwaited (b : Nat) (s : State) : State := (removeWaitsOn b .noBay (enterEmpty b s)).oweScan

/-- R124, R132: presence has fallen. -/
def pulled (b : Nat) (s : State) : State :=
  match (s.bay b).state with
  | .empty => s
  | .ready => faultHandling b .pulled s
  | .draining => faultHandling b .pulled s
  | .spinWait => pulledAwaited b (leaveSpinQueue b s)
  | .spinning => pulledAwaited b s
  | .stopping => enterEmpty b s
  | .released => enterEmpty b s
  | .faulted => enterEmpty b s

/-- BAY_PRESENCE_FALL (R124). -/
def execBayPresenceFall (b : Nat) (s : State) : Result :=
  onBay b (fun s =>
    .next (if (s.bay b).presence then finish (pulled b (s.modBay b fun x => { x with presence := false })) else s)) s

/-- RELEASE_BUTTON_PRESS (R135). -/
def execReleaseButtonPress (b : Nat) (s : State) : Result :=
  onBay b (fun s =>
    .next (if (s.profile b).releasePermitted ∧ (s.bay b).state.awaitable then finish (releaseBay b s) else s)) s

end Sys2Proof.Machine
end

