-- ==== Sys2Proof/Machine/Resets.lean ====
section
/-! DEFINITION. The three resets (11): what each clears and keeps, the loading of the settings, the cause flags, the bays
after a reset, and RESTARTED. -/

namespace Sys2Proof.Machine

/-- R178: link `l` after a reset. Its presence line is as it stands (log entry 30); its far ready line may have changed when
the link next tests it (log entry 7). -/
def Link.afterReset (l : Nat) (x : Link) : Link :=
  { Link.initial with presence := x.presence, lineReads := x.lineReads }.forgetLine l

/-- R1: the loan table empty, with its issue numbers kept. -/
def Slot.cleared (k : Slot) : Slot := { k with loan := none }

/-- Table 11-1: what every reset clears (R26, R60, R79, R85, R149, R151, R178, R184, R186). -/
def clearService (s : State) : State :=
  { s with
    links := s.links.mapIdx Link.afterReset
    loans := s.loans.map Slot.cleared
    waits := []
    arrival := 0
    records := []
    poolFree := Config.buffers
    poolWait := []
    spinQueue := []
    channels := List.replicate Config.channels Channel.free
    twins := List.replicate Config.twins none
    notices := Notices.afterReset
    saving := none
    scanDue := false }

/-- R176, R192: each node link whose presence is high places RESTARTED with origin RESET. -/
def placeRestarted (s : State) : State :=
  (List.range Config.nodes).foldl
    (fun s i => place (i + 1) { tag := 0, record := .restarted (i + 1) .reset } s) s

/-- R189: read the store; the settings become the image's, or the defaults with the DEFAULTS flag (R190). -/
def loadSettings (s : State) : State :=
  let loaded := loadImage s.store
  { s with settings := loaded.1, cause := { s.cause with defaults := s.cause.defaults || loaded.2 } }

/-! ### Bays (R147, R148, R191) -/

/-- R98, R148: what is left of the unit in service on a READY bay. A verify run goes on; of any other unit the block
operation in progress completes, and is reported to no command. -/
def lostUnit : DiskUnit → DiskUnit
  | .verify => .verify
  | .command _ => .lost
  | .chunkRead _ => .lost
  | .chunkWrite _ => .lost
  | .lost => .lost

/-- R148: a bay at a pin reset or RESET SHELF, `p` its profile after the loading of the settings. DESIGN CHOICE (log entry 31): a
bay in SPINNING or SPIN_WAIT keeps its head, which the table of R148 does not list for these two. -/
def Bay.afterReset (p : Profile) (x : Bay) : Bay :=
  match x.state with
  | .ready => { x.clearArbiter with service := x.service.map lostUnit, upkeepDue := false, upkeepTimer := upkeepStart p }
  | .spinning => { x.opOver.clearArbiter with powerOnSpin := false, service := none }
  | .spinWait => { x with powerOnSpin := false }
  | .draining =>
    { x.opOver.clearArbiter with faultCause := none, upkeepDue := false, upkeepTimer := none, service := none }
  | .stopping =>
    { x.opOver.clearArbiter with faultCause := none, upkeepDue := false, upkeepTimer := none, service := none }
  | .released => x
  | .faulted => x
  | .empty => x

/-- R148: the state after a pin reset or RESET SHELF. -/
def BayState.afterReset : BayState → BayState
  | .spinning => .spinWait
  | .draining => .released
  | .stopping => .released
  | .ready => .ready
  | .spinWait => .spinWait
  | .released => .released
  | .faulted => .faulted
  | .empty => .empty

/-- R148, R191: one bay at a pin reset or RESET SHELF; a change of its state raises the BAY notice, and a bay in SPIN_WAIT
joins the spin queue. Of several changes the notice keeps the highest bay number: DESIGN CHOICE (log entry 42). -/
def resetBay (b : Nat) (s : State) : State :=
  let old := (s.bay b).state
  let s := s.modBay b (Bay.afterReset (s.profile b))
  let s := if old.afterReset = old then s else setBayState b old.afterReset s
  if old.afterReset = .spinWait then { s with spinQueue := s.spinQueue ++ [b] } else s

/-- R147: a bay at power-on, its presence line as it stands; the operation numbers go on (log entry 10). -/
def Bay.powered (x : Bay) : Bay := { Bay.initial with presence := x.presence, opNumber := x.opNumber }

/-- R147, R191: a seated, enabled bay enters SPIN_WAIT with power-on spin yes. -/
def powerBay (b : Nat) (s : State) : State :=
  if (s.bay b).presence ∧ (s.profile b).enabled then
    (enterSpinWait b s).modBay b fun x => { x with powerOnSpin := true }
  else s

/-- Do `f` for each bay, in bay number order. It is the order of the joins of the spin queue (R127); that the changes of R148 to
RELEASED are taken in that order among them is a DESIGN CHOICE (log entry 42). -/
def State.eachBay (s : State) (f : Nat → State → State) : State := (List.range Config.bays).foldl (fun s b => f b s) s

/-! ### The resets (R188) -/

/-- R188, R190: power-on. -/
def powerOn (s : State) : State :=
  let s := clearService s
  let s := { s with loans := List.replicate Config.slots { issue := 0, loan := none }
                    bays := s.bays.map Bay.powered
                    cause := { power := true, pin := false, shelf := false, defaults := false } }
  placeRestarted ((loadSettings s).eachBay powerBay)

/-- POWER_ON (R188). -/
def execPowerOn (s : State) : Result := .next (powerOn s)

/-- R188: what a pin reset and RESET SHELF have in common, the cause flag and the settings being set. -/
def warmReset (s : State) : State := placeRestarted ((clearService s).eachBay resetBay)

/-- PIN_RESET (R188). -/
def execPinReset (s : State) : Result := .next (warmReset { s with cause := { s.cause with pin := true } })

/-- R188: RESET SHELF, its reload field read from the body. -/
def resetShelf (reload : Bool) (s : State) : State :=
  let s := { s with cause := { s.cause with shelf := true } }
  warmReset (if reload then loadSettings s else s)

/-- RESET_SHELF (R188). -/
def execResetShelf (s : State) : Result :=
  match takeHead 0 kindResetShelf noEntry s with
  | none => .next s
  | some (f, s) => .next (resetShelf (reloadOf f.body) s)

end Sys2Proof.Machine
end

