-- ==== Sys2Proof/Machine/Supervisor.lean ====
section
/-! DEFINITION. The meanings of the supervisor's frames but RESET SHELF (03, 07, 08, 10), and of SAVE_COMPLETE. -/

namespace Sys2Proof.Machine

/-- A supervisor frame of one kind: it reserves one entry, and a tag of 0 is answered BAD_TAG before every other check
(R174). -/
def supervised (kind : Nat) (act : Frame → State → State) (s : State) : Result :=
  taking 0 kind oneEntry (fun f s => if f.tag = 0 then reject 0 f rejectTag s else act f s) s

/-- Act on a body whose form passes; answer the first check that fails. -/
def formed {α : Type} (form : List Byte → Form α) (act : Frame → α → State → State) (f : Frame) (s : State) : State :=
  match form f.body with
  | .error r => reject 0 f r s
  | .ok a => act f a s

/-! ### SET BAY, SET NODE, SET SHELF (R180 to R182, R43, R54) -/

def setBayAct (f : Frame) (q : Nat × Profile) (s : State) : State :=
  let b := q.1
  let old := (s.profile b).holdMinimum
  let s := { s with settings := { s.settings with profiles := s.settings.profiles.set b q.2 } }
  let s := reply 0 f (.takenSetBay b q.2) s
  if q.2.holdMinimum = old then s else recomputeWhere (fun s l => s.sourceBay l == b) s

/-- SET_BAY (R180). -/
def execSetBay (s : State) : Result := supervised kindSetBay (formed setBayForm setBayAct) s

def setNodeAct (f : Frame) (q : Nat × NodeEntry) (s : State) : State :=
  let n := q.1
  let entry := { q.2 with loanLimit := max q.2.loanLimit (s.loanCount n + s.waitCount n) }
  let s := { s with settings := { s.settings with nodeTable := s.settings.nodeTable.set (n - 1) entry } }
  reply 0 f (.takenSetNode n entry) s

/-- SET_NODE (R181). -/
def execSetNode (s : State) : Result := supervised kindSetNode (formed setNodeForm setNodeAct) s

/-- R43: the level has changed. The grant scan that it owes comes at the end. -/
def levelChanged (s : State) : State :=
  let s := { s with waits := s.waits.map fun e => { e with masked := masks s.settings.level e.cls } }
  (recomputeWhere (fun _ _ => true) s).oweScan

def setShelfAct (f : Frame) (q : Level × Nat) (s : State) : State :=
  let old := s.settings.level
  let group := max q.2 s.spinningCount
  let s := { s with settings := { s.settings with level := q.1, spinGroup := group } }
  let s := reply 0 f (.takenSetShelf q.1 group) s
  if q.1 = old then s else levelChanged s

/-- SET_SHELF (R182). -/
def execSetShelf (s : State) : Result := supervised kindSetShelf (formed setShelfForm setShelfAct) s

/-! ### COPY, HALT COPY, DROP TWIN (R152, R153, R158 to R160) -/

def copyAct (f : Frame) (q : CopyBody) (s : State) : State :=
  match s.copyRefusal q.source q.target q.first q.last with
  | some r => reply 0 f (.refusedSup r) s
  | none =>
    startCopy q.source q.target q.first q.last
      (reply 0 f (.takenCopy s.freeTwin s.freeChannel q.source q.target q.first q.last) s)

/-- COPY (R153). -/
def execCopy (s : State) : Result := supervised kindCopy (formed copyForm copyAct) s

/-- R158: decide the halt of a COPYING record, unless an end is decided already. -/
def haltTwin (t : Nat) (w : Twin) (s : State) : State :=
  let decided := match w.channel with
    | some c => (s.channel c).endStatus.isSome
    | none => false
  if decided then s else decideCopyEnd t .halted s

def haltAct (f : Frame) (t : Nat) (s : State) : State :=
  match s.twin t with
  | none => reply 0 f (.refusedSup .noRecord) s
  | some w =>
    if w.state = .copying then haltTwin t w (reply 0 f (.takenTwin t .halting) s)
    else reply 0 f (.refusedSup .notCopying) s

/-- HALT_COPY (R158). -/
def execHaltCopy (s : State) : Result := supervised kindHaltCopy (formed twinForm haltAct) s

/-- R160: a held move toward the target bay through the record keeps its move with via twin absent. What R6 asks of the bay
that the loan comes to is a DESIGN CHOICE (log entry 39). -/
def clearMoveVia (t k : Nat) (s : State) : State :=
  match s.loan k with
  | some l => match l.move with
    | some m => if m.via = some t then s.setLoan k { l with move := some { m with via := none } } else s
    | none => s
  | none => s

/-- R160, R55: a loan that names the record becomes an ordinary loan on its placed bay. -/
def clearVia (t k : Nat) (s : State) : State :=
  match s.loan k with
  | some l => if l.viaTwin = some t then recompute k (s.setLoan k { l with viaTwin := none }) else s
  | none => s

/-- R160: an ORPHAN record is dropped. -/
def dropOrphan (t : Nat) (s : State) : State :=
  (((s.eachSlot (clearMoveVia t)).eachSlot (clearVia t)).setTwin t none).oweScan

def dropAct (f : Frame) (t : Nat) (s : State) : State :=
  match s.twin t with
  | none => reply 0 f (.refusedSup .noRecord) s
  | some w =>
    if w.retiring then reply 0 f (.takenTwin t .unchanged) s
    else match w.state with
      | .copying => haltTwin t w (reply 0 f (.takenTwin t .halting) s)
      | .orphan => dropOrphan t (reply 0 f (.takenTwin t .dropped) s)
      | .live =>
        let s := retireAndMove t w .twinDropped s
        reply 0 f (.takenTwin t (if (s.twin t).isNone then .dropped else .retiring)) s
      | .stale =>
        let s := retireAndMove t w .twinDropped s
        reply 0 f (.takenTwin t (if (s.twin t).isNone then .dropped else .retiring)) s

/-- DROP_TWIN (R159, R160). -/
def execDropTwin (s : State) : Result := supervised kindDropTwin (formed twinForm dropAct) s

/-! ### RELEASE BAY and RESTORE BAY (R134, R140) -/

/-- R134: the new state that TAKEN names (log entry 11). -/
def BayState.released? : BayState → Option BayState
  | .spinWait => some .released
  | .spinning => some .stopping
  | .ready => some .draining
  | .empty => none
  | .draining => none
  | .stopping => none
  | .released => none
  | .faulted => none

def releaseAct (f : Frame) (b : Nat) (s : State) : State :=
  match (s.bay b).state.released? with
  | some st => releaseBay b (reply 0 f (.takenBay b st) s)
  | none => reply 0 f (.refusedBay b (s.bay b).state) s

/-- RELEASE_BAY (R134). -/
def execReleaseBay (s : State) : Result := supervised kindReleaseBay (formed bayForm releaseAct) s

/-- R140. DESIGN CHOICE (log entry 46): REFUSED BAY_STATE carries the bay number beside the present state, as R134's does. -/
def restoreAct (f : Frame) (b : Nat) (s : State) : State :=
  let x := s.bay b
  if x.state = .released ∨ x.state = .faulted ∨ (x.state = .empty ∧ x.presence) then
    enterSpinWait b (reply 0 f (.takenBay b .spinWait) s)
  else if x.state = .empty then reply 0 f (.refusedSup .noDisk) s
  else reply 0 f (.refusedBay b x.state) s

/-- RESTORE_BAY (R140). -/
def execRestoreBay (s : State) : Result := supervised kindRestoreBay (formed bayForm restoreAct) s

/-! ### RECLAIM (R56, R57) -/

/-- R56: the loan's state after the decision; a loan whose slot was freed in the decision had reached ENDED (log
entry 23). -/
def stateAfter (k : Nat) (s : State) : LoanState :=
  match s.loan k with
  | some l => l.state
  | none => .ended

def reclaimAct (f : Frame) (id : LoanId) (s : State) : State :=
  match s.matchLoan none id with
  | none => reply 0 f (.refusedSup .noLoan) s
  | some l =>
    if l.state = .active then
      let s := decideEnd id.slot .reclaimed s
      reply 0 f (.takenReclaim id .reclaimed (stateAfter id.slot s) (some .reclaimed)) s
    else reply 0 f (.takenReclaim id .unchanged l.state l.endReason) s

/-- RECLAIM (R56). -/
def execReclaim (s : State) : Result := supervised kindReclaim (formed reclaimForm reclaimAct) s

/-! ### REPORT (R183, R120, R146, R168) -/

/-- The kind of a disk operation (Table 7-5). -/
def DiskOp.kind : DiskOp → OpKind
  | .spinUp => .spinUp
  | .identify => .identify
  | .readBlock _ => .readBlock
  | .writeBlock .. => .writeBlock
  | .verifyRun .. => .verifyRun
  | .spinDown => .spinDown

/-- R120, R146: what REPORT BAY carries. DESIGN CHOICE (log entry 13): the members are listed from the pointer member on. -/
def State.bayReport (s : State) (b : Nat) : BayReport :=
  let x := s.bay b
  let place := (s.spinQueue.findIdx? fun q => q == b).map (· + 1)
  let issueOf : MemberKind → Nat
    | .loan k => (s.slot k).issue
    | .channel _ => 0
  let countOf : DiskUnit → Nat
    | .command ref => ((s.record ref).map Command.count).getD 0
    | .chunkRead c => (s.channel c).chunkCount
    | .chunkWrite c => (s.channel c).chunkCount
    | .verify => 0
    | .lost => 0
  { bay := b, state := x.state, faultCause := x.faultCause, capacity := x.capacity, presence := x.presence
    spinPlace := if x.state = .spinWait then place else none
    cursor := x.cursor, upkeepDue := x.upkeepDue, upkeepTimer := x.upkeepTimer.map UpkeepTimer.seconds
    operation := x.op.map DiskOp.kind, weak := x.weak
    members := x.ring.map fun m => (m.who, issueOf m.who, m.cls, m.credit)
    pointer := x.ring.head?.map Member.who, deferral := x.deferral, queuedCount := x.queuedCount
    chosenCount := x.chosen.map countOf, chunkWrite := x.chunkWrite.isSome, head := x.head, profile := s.profile b }

/-- R183: every field of Table 1-1, the source bay and the pressure. -/
def State.loanDetail (s : State) (l : Loan) : LoanDetail :=
  { borrower := l.borrower, askedBay := l.askedBay, placedBay := l.placedBay, viaTwin := l.viaTwin, kind := l.kind
    cls := l.cls, range := l.range, state := l.state, endReason := l.endReason, holdBase := l.holdBase
    holdLimit := l.holdLimit, idle := l.idle, commands := l.commands, notice := l.notice, returnTag := l.returnTag
    moveTo := l.move.map HeldMove.bay, sourceBay := s.sourceBay l, pressure := s.pressure l }

def State.loanReport (s : State) (k : Nat) : LoanReport :=
  { slot := k, issue := (s.slot k).issue, loan := (s.loan k).map s.loanDetail }

def State.nodeReport (s : State) (n : Nat) : NodeReport :=
  let x := s.link n
  { node := n, entry := s.nodeEntry n, presence := x.presence, loans := s.loanCount n, waits := s.waitCount n
    records := s.recordCount n, placed := x.placed.length, reserved := x.reserved, free := x.free
    poolWait := (s.poolWait.find? fun w => w.who == .link n).map Waiter.count
    entries := s.waits.filter fun e => e.node == n }

/-- The buffers held by command records, and by copy channels (R79, R183). -/
def State.heldByCommands (s : State) : Nat := (s.records.map Command.held).sum
def State.heldByChannels (s : State) : Nat := (s.channels.map Channel.held).sum

def State.poolReport (s : State) : PoolReport :=
  { free := s.poolFree, byCommands := s.heldByCommands, byChannels := s.heldByChannels, waiters := s.poolWait }

/-- R168: what REPORT TWINS carries of a channel. -/
def Channel.report (c : Channel) : ChannelReport :=
  { busy := c.busy, twin := c.twin, phase := c.phase, chunkFirst := c.chunkFirst, chunkCount := c.chunkCount
    held := c.held, endStatus := c.endStatus }

def State.twinReport (s : State) : TwinReport :=
  { records := (List.range Config.twins).filterMap fun t => (s.twin t).map fun w => (t, w, s.loansVia t)
    channels := s.channels.map Channel.report }

/-- R183, SHELF. The bays in SPINNING are listed in bay number order: DESIGN CHOICE (log entry 41). -/
def State.shelfReport (s : State) : ShelfReport :=
  { level := s.settings.level, spinGroup := s.settings.spinGroup
    spinning := (List.range Config.bays).filter fun b => (s.bay b).state == .spinning
    spinQueue := s.spinQueue, loans := s.loans.countP fun k => k.loan.isSome, waits := s.waits.length
    records := s.records.length, arrival := s.arrival, saving := s.saving.isSome, notices := s.notices, cause := s.cause }

/-- R183: the values as they stand when the REPORT is taken. -/
def State.report (s : State) : Selector → Report
  | .bay b => .bay (s.bayReport b)
  | .loan k => .loan (s.loanReport k)
  | .node n => .node (s.nodeReport n)
  | .pool => .pool s.poolReport
  | .twins => .twins s.twinReport
  | .shelf => .shelf s.shelfReport

def reportAct (f : Frame) (sel : Selector) (s : State) : State := reply 0 f (.report (s.report sel)) s

/-- REPORT (R183). -/
def execReport (s : State) : Result := supervised kindReport (formed reportForm reportAct) s

/-! ### READ CAUSE, ARM, SAVE (R185 to R187) -/

/-- READ_CAUSE (R187). -/
def execReadCause (s : State) : Result :=
  supervised kindReadCause (fun f s =>
    { reply 0 f (.cause s.cause) s with cause := { power := false, pin := false, shelf := false, defaults := false } }) s

/-- R185: a kind marked yes is armed or disarmed. -/
def Notice.mark (marked arm : Bool) (n : Notice) : Notice := if marked then { n with armed := arm } else n

def armAct (f : Frame) (q : ArmBody) (s : State) : State :=
  let ns := s.notices
  let ns : Notices :=
    { cause := ns.cause.mark q.cause q.arm, bay := ns.bay.mark q.bay q.arm, copy := ns.copy.mark q.copy q.arm
      worn := ns.worn.mark q.worn q.arm, weak := ns.weak.mark q.weak q.arm }
  reply 0 f (.takenArm ns.cause.armed ns.bay.armed ns.copy.armed ns.worn.armed ns.weak.armed) { s with notices := ns }

/-- ARM (R185). -/
def execArm (s : State) : Result := supervised kindArm (formed armForm armAct) s

/-- R186: a SAVE with no save in progress begins one, its reservation kept for SAVED. -/
def saveAct (f : Frame) (s : State) : State :=
  if s.saving.isSome then reply 0 f (.refusedSup .busy) s
  else { s with saving := some { image := imageOf s.settings, tag := some f.tag
                                 check := crc16 (settingsBytes s.settings), ticks := 0 } }

/-- SAVE (R186). -/
def execSave (s : State) : Result := supervised kindSave saveAct s

/-- R186: the write completes. -/
def saveComplete (v : Save) (s : State) : State :=
  let s := { s with store := v.image, saving := none }
  match v.tag with
  | some t => placeReserved 0 { tag := t, record := .saved v.check } s
  | none => s

/-- SAVE_COMPLETE (R186). -/
def execSaveComplete (s : State) : Result :=
  .next (match s.saving with
    | some v => saveComplete v s
    | none => s)

end Sys2Proof.Machine
end

