-- ==== Sys2Proof/Machine/Dispatch.lean ====
section
/-! DEFINITION. One arm per command, each one call of its meaning. -/

namespace Sys2Proof.Machine

def exec (i : Instr) (s : State) : Host.Outcome State Fault Refusal :=
  match i with
  | .borrow node => Sys2Proof.Machine.execBorrow node s
  | .withdraw node => Sys2Proof.Machine.execWithdraw node s
  | .returnLoan node => Sys2Proof.Machine.execReturn node s
  | .hold node => Sys2Proof.Machine.execHold node s
  | .query node => Sys2Proof.Machine.execQuery node s
  | .read node => Sys2Proof.Machine.execRead node s
  | .write node => Sys2Proof.Machine.execWrite node s
  | .data node => Sys2Proof.Machine.execData node s
  | .stream node => Sys2Proof.Machine.execStream node s
  | .cancel node => Sys2Proof.Machine.execCancel node s
  | .unknownKindFrame link => Sys2Proof.Machine.execUnknownKindFrame link s
  | .setBay => Sys2Proof.Machine.execSetBay s
  | .setNode => Sys2Proof.Machine.execSetNode s
  | .setShelf => Sys2Proof.Machine.execSetShelf s
  | .copy => Sys2Proof.Machine.execCopy s
  | .haltCopy => Sys2Proof.Machine.execHaltCopy s
  | .dropTwin => Sys2Proof.Machine.execDropTwin s
  | .releaseBay => Sys2Proof.Machine.execReleaseBay s
  | .restoreBay => Sys2Proof.Machine.execRestoreBay s
  | .reclaim => Sys2Proof.Machine.execReclaim s
  | .report => Sys2Proof.Machine.execReport s
  | .readCause => Sys2Proof.Machine.execReadCause s
  | .arm => Sys2Proof.Machine.execArm s
  | .save => Sys2Proof.Machine.execSave s
  | .resetShelf => Sys2Proof.Machine.execResetShelf s
  | .powerOn => Sys2Proof.Machine.execPowerOn s
  | .pinReset => Sys2Proof.Machine.execPinReset s
  | .frameArrive link bytes => Sys2Proof.Machine.execFrameArrive link bytes s
  | .recordSent link farReady => Sys2Proof.Machine.execRecordSent link farReady s
  | .farReadyRise link => Sys2Proof.Machine.execFarReadyRise link s
  | .nodePresenceFall node => Sys2Proof.Machine.execNodePresenceFall node s
  | .nodePresenceRise node farReady => Sys2Proof.Machine.execNodePresenceRise node farReady s
  | .supervisorPresenceFall => Sys2Proof.Machine.execSupervisorPresenceFall s
  | .supervisorPresenceRise farReady => Sys2Proof.Machine.execSupervisorPresenceRise farReady s
  | .idleClockExpiry slot => Sys2Proof.Machine.execIdleClockExpiry slot s
  | .dataGapExpiry node tag => Sys2Proof.Machine.execDataGapExpiry node tag s
  | .upkeepTimerExpiry bay => Sys2Proof.Machine.execUpkeepTimerExpiry bay s
  | .spinUpTimeout bay => Sys2Proof.Machine.execSpinUpTimeout bay s
  | .identifyTimeout bay => Sys2Proof.Machine.execIdentifyTimeout bay s
  | .operationNoAnswer bay => Sys2Proof.Machine.execOperationNoAnswer bay s
  | .spinDownTimeout bay => Sys2Proof.Machine.execSpinDownTimeout bay s
  | .spinUpReady bay op => Sys2Proof.Machine.execSpinUpReady bay op s
  | .identifyAnswer bay op capacity => Sys2Proof.Machine.execIdentifyAnswer bay op capacity s
  | .readBlockAnswer bay op outcome => Sys2Proof.Machine.execReadBlockAnswer bay op outcome s
  | .writeBlockAnswer bay op outcome => Sys2Proof.Machine.execWriteBlockAnswer bay op outcome s
  | .verifyRunAnswer bay op outcome => Sys2Proof.Machine.execVerifyRunAnswer bay op outcome s
  | .spinDownDone bay op => Sys2Proof.Machine.execSpinDownDone bay op s
  | .bayPresenceRise bay => Sys2Proof.Machine.execBayPresenceRise bay s
  | .bayPresenceFall bay => Sys2Proof.Machine.execBayPresenceFall bay s
  | .releaseButtonPress bay => Sys2Proof.Machine.execReleaseButtonPress bay s
  | .saveComplete => Sys2Proof.Machine.execSaveComplete s
  | .dispatchPoint bay => Sys2Proof.Machine.execDispatchPoint bay s
  | .poolServe => Sys2Proof.Machine.execPoolServe s
  | .dataPlaceWaiting node => Sys2Proof.Machine.execDataPlaceWaiting node s
  | .loanNoticePlace node => Sys2Proof.Machine.execLoanNoticePlace node s
  | .noticePlace => Sys2Proof.Machine.execNoticePlace s
  | .spinAdmit => Sys2Proof.Machine.execSpinAdmit s
  | .segmentBoundary node tag => Sys2Proof.Machine.execSegmentBoundary node tag s
  | .heldMoveCarryOut slot => Sys2Proof.Machine.execHeldMoveCarryOut slot s
  | .drainComplete bay => Sys2Proof.Machine.execDrainComplete bay s
  | .copyEnd channel => Sys2Proof.Machine.execCopyEnd channel s
  | .tick => Sys2Proof.Machine.execTick s
  | .overlongFrameDiscard link length => Sys2Proof.Machine.execOverlongFrameDiscard link length s

end Sys2Proof.Machine
end

