-- ==== Sys2Proof/Safety.lean ====
section
/-! DEFINITION. What the claims are about: the bounds that every step keeps, and the conditions and effects that many
claims share (a frame that can be taken, a link that has been answered). -/

namespace Sys2Proof.Machine

/-! ### Bounds that every step keeps -/

/-- The tables have their sizes (00_scope.md 4.2, R1, R121, R149, R151, R180, R181). -/
structure State.Shaped (s : State) : Prop where
  links     : s.links.length = Config.nodes + 1
  loans     : s.loans.length = Config.slots
  bays      : s.bays.length = Config.bays
  channels  : s.channels.length = Config.channels
  twins     : s.twins.length = Config.twins
  profiles  : s.settings.profiles.length = Config.bays
  nodeTable : s.settings.nodeTable.length = Config.nodes

/-- R170, R172: an inbound queue holds at most 8 frames; placed records and reservations are at most 64. -/
def Link.bounded (x : Link) : Prop :=
  x.inbound.length ≤ Config.inbound ∧ x.placed.length + x.reserved ≤ Config.outbound
def State.LinksBounded (s : State) : Prop := ∀ x ∈ s.links, x.bounded

/-- R145, R144, R98: a weak list holds at most 16 distinct blocks; the deferral count is 0..3. -/
def Bay.bounded (x : Bay) : Prop := x.weak.length ≤ Config.weak ∧ x.weak.Nodup ∧ x.deferral ≤ 3
def State.BaysBounded (s : State) : Prop := ∀ x ∈ s.bays, x.bounded

/-- R79: the free count and the buffers held by command records and by copy channels add up to 384; a free channel holds
none (R151). -/
def Channel.emptyWhenFree (c : Channel) : Prop := c.busy = false → c.held = 0
def State.PoolBalanced (s : State) : Prop :=
  s.poolFree + s.heldByCommands + s.heldByChannels = Config.buffers ∧ ∀ c ∈ s.channels, c.emptyWhenFree

/-- R112: a member's credit is in its bounds, and that of a NORMAL or BULK member is not negative; a member not visited has
at most 127. -/
def Member.inBounds (m : Member) : Prop :=
  -128 ≤ m.credit ∧ m.credit ≤ 383 ∧ (m.cls ≠ .rush → 0 ≤ m.credit) ∧ (m.visited = false → m.credit ≤ 127)

/-- R128: at most G bays are in SPINNING. -/
def State.SpinBounded (s : State) : Prop := s.spinningCount ≤ s.settings.spinGroup

/-- R26, R28: the wait list holds at most 64 entries, and no entry stands before one of a higher class. -/
def State.WaitsOrdered (s : State) : Prop :=
  s.waits.length ≤ Config.waitEntries ∧ s.waits.Pairwise fun a b => a.cls.rank ≤ b.cls.rank

/-- R20, R21: only an ACTIVE loan holds a move; said of one slot, and of the loan table. -/
def Slot.movesActive (x : Slot) : Prop := ∀ l, x.loan = some l → l.move ≠ none → l.state = .active
def State.MovesActive (s : State) : Prop := ∀ k l, s.loan k = some l → l.move ≠ none → l.state = .active

/-- No grant scan is owed between two commands (R33, log entry 3). -/
def State.Settled (s : State) : Prop := s.scanDue = false

/-- The values of a profile, a node entry and the settings fit their fields of the settings image (10.4). -/
def Profile.storable (p : Profile) : Prop :=
  p.quantum < 256 ∧ p.seekExponent < 256 ∧ p.seekCap < 256 ∧ p.holdMinimum < 65536 ∧ p.hotThreshold < 256 ∧
  (∀ b, p.spare = some b → b < Config.bays) ∧ p.hotFirst < 4294967296 ∧ p.hotLast < 4294967296 ∧
  p.upkeepPeriod < 65536 ∧ p.upkeepLength < 65536 ∧ p.operationTimeout < 65536 ∧ p.spinLimit < 65536
def NodeEntry.storable (e : NodeEntry) : Prop := e.loanLimit < 256 ∧ e.holdBase < 65536 ∧ e.dataGap < 65536
def Settings.storable (t : Settings) : Prop :=
  t.profiles.length = Config.bays ∧ t.nodeTable.length = Config.nodes ∧ t.spinGroup < 256 ∧
  (∀ p ∈ t.profiles, p.storable) ∧ ∀ e ∈ t.nodeTable, e.storable

/-- A command whose outcome is a next state. -/
def Runs (c : Instr) (s : State) (p : State → Prop) : Prop := ∃ t, exec c s = .next t ∧ p t

/-! ### Frames that can be taken, and answers -/

/-- R170, R171: the frame of kind `kind` stands at the head of link `l`, no WRITE is held there, its needs can be met, and
no grant scan is owed. -/
structure State.CanTake (s : State) (l kind needs : Nat) (f : Frame) : Prop where
  settled  : s.Settled
  head     : (s.link l).inbound.head? = some f
  isKind   : f.kind = kind
  presence : (s.link l).presence = true
  notHeld  : (s.link l).heldWrite = false
  room     : s.canReserve l needs = true

/-- The link after its head frame has been taken without a reservation. -/
def Link.taken (x : Link) : Link := { x with inbound := x.inbound.tail }

/-- The link after its head frame has been taken with one entry reserved for a later reply. -/
def Link.kept (x : Link) : Link := { x with inbound := x.inbound.tail, reserved := x.reserved + 1 }

/-- The link after a record without a reservation has been placed. -/
def Link.placing (x : Link) (o : OutRecord) : Link :=
  { x with placed := x.placed ++ [o], sending := x.sending || x.farReady }

/-- The link after a reply has been placed into a reservation. -/
def Link.replying (x : Link) (o : OutRecord) : Link :=
  { x with placed := x.placed ++ [o], reserved := x.reserved - 1, sending := x.sending || x.farReady }

/-- The state after the head frame `f` of link `l` has been taken and answered with `r`; nothing else changes. -/
def State.answer (s : State) (l : Nat) (f : Frame) (r : Record) : State :=
  s.setLink l ((s.link l).taken.placing { tag := f.tag, record := r })

/-- The link's outbound queue holds the record. -/
def State.HasPlaced (s : State) (l : Nat) (o : OutRecord) : Prop := o ∈ (s.link l).placed

/-! ### Expected parts of a next state -/

/-- The command record is freed: its buffers return to the pool, and its loan's commands field falls (R4, R46, R61, R79). -/
def State.withoutRecord (s : State) (r : Command) (l : Loan) : State :=
  { s.setLoan r.loan.slot { l with commands := l.commands - 1, idle := 0 } with
    records := s.records.eraseP fun x => x.ref == r.ref
    poolFree := s.poolFree + r.held }

/-- A new command record under loan `l` (R4, R46, R61). -/
def State.withRecord (s : State) (r : Command) (l : Loan) : State :=
  { s.setLoan r.loan.slot { l with commands := l.commands + 1, idle := 0 } with records := s.records ++ [r] }

/-- The one command record under the loan in slot `k` is `r`. -/
def State.onlyRecord (s : State) (k : Nat) (r : Command) : Prop :=
  s.recordsOf k = [r.ref] ∧ s.record r.ref = some r ∧ r.loan.slot = k

/-- The slot is freed with its loan's one command record, whose buffers return to the pool (R1, R61, R79). -/
def State.withoutLoan (s : State) (k : Nat) (r : Command) : State :=
  { s.setSlot k { issue := (s.slot k).issue, loan := none } with
    records := s.records.eraseP fun x => x.ref == r.ref
    poolFree := s.poolFree + r.held }

/-- R101: a queued command leaves the bay's ring, and with its last one the member. -/
def Bay.dropping (ref : CommandRef) (x : Bay) : Bay := { x with ring := x.ring.filterMap (Member.without ref) }

/-- R16, R93: a command record that an end of its loan ends at once: its final reply under work status `st`, and what becomes of
its loan's placed bay. A stream is one whose DATA has all been sent, so that its record is freed. -/
def Command.endsAtOnce (r : Command) (st : Status) (out : Record) (bay : Bay → Bay) : Prop :=
  (r.kind ≠ .stream ∧ r.state = .queued ∧ out = .done st 0 ∧ bay = Bay.dropping r.ref) ∨
  (r.kind = .write ∧ r.state = .gathering ∧ out = .done st 0 ∧ bay = fun x => x) ∨
  (r.kind = .stream ∧ r.state = .queued ∧ r.held = 0 ∧ out = .streamEnd st r.delivered ∧ bay = Bay.dropping r.ref)

/-- The stages of a command that has been chosen at a dispatch point (Table 4-2). -/
def Command.chosen (r : Command) : Prop := r.state = .poolWait ∨ r.state = .inService ∨ r.state = .delivering

/-- R167: one command more in the ring of bay `b` starts no hot copy: its queued count does not rise to the threshold, or the
firing is suppressed, has no spare, or is refused. -/
def State.hotQuiet (s : State) (b : Nat) : Prop :=
  let p := s.profile b
  ((s.bay b).ring.map fun m => m.queued.length).sum + 1 ≠ p.hotThreshold ∨ p.hotThreshold = 0 ∨
  s.settings.level = .lockdown ∨ p.spare = none ∨
  ∃ target r, p.spare = some target ∧ s.copyRefusal b target p.hotFirst p.hotLast = some r

/-- R167, R149, R153, R154: bay `b`'s hot trigger fires at its next queued command, and the copy passes every check: it takes
channel `c` and twin slot `i`, the lowest free ones. -/
def State.hotFires (s : State) (b target c i : Nat) : Prop :=
  let p := s.profile b
  ((s.bay b).ring.map fun m => m.queued.length).sum + 1 = p.hotThreshold ∧ s.settings.level ≠ .lockdown ∧
  p.spare = some target ∧ s.copyRefusal b target p.hotFirst p.hotLast = none ∧
  (∀ j < c, (s.channel j).busy = true) ∧ c < s.channels.length ∧ (s.channel c).busy = false ∧
  (∀ j < i, (s.twin j).isSome = true) ∧ i < s.twins.length ∧ s.twin i = none

/-- R167, R149, R153, R154: that copy has been made (there being no wait entry), and its COPY notice says STARTED. -/
def State.hotCopied (s : State) (b target c i : Nat) : State :=
  let p := s.profile b
  { ((s.setTwin i (some
        { source := b, target := target, first := p.hotFirst, last := p.hotLast, state := .copying, channel := some c
          next := p.hotFirst, retiring := false })).setChannel c
      { busy := true, twin := i, phase := .queued, chunkFirst := p.hotFirst
        chunkCount := min 32 (p.hotLast - p.hotFirst + 1), held := 0, endStatus := none, filled := [] }).modBay b
      (fun x => { x with
        ring := x.ring ++ [{ who := .channel c, cls := .bulk, credit := 0, visited := false, queued := [] }] }) with
    notices := { s.notices with copy := { s.notices.copy with
      pending := true, count := min 255 (s.notices.copy.count + 1), subject := i, status := .started } } }

/-- The notices after bay `b` has changed state (R121, R184). -/
def State.bayNotice (s : State) (b : Nat) : Notices :=
  { s.notices with bay := { s.notices.bay with pending := true, count := min 255 (s.notices.bay.count + 1), subject := b } }

/-- R144: the weak list after block `n` has joined it. -/
def joinedWeak (weak : List Nat) (n : Nat) : List Nat :=
  if n ∈ weak then weak else (if weak.length < 16 then weak else weak.tail) ++ [n]

/-- R144, R184: the notices after block `n` has joined the weak list `weak` of bay `b`: a join is a WEAK notice, and one that
leaves 16 entries on the list a WORN notice as well. -/
def State.weakNotices (s : State) (b : Nat) (weak : List Nat) (n : Nat) : Notices :=
  let raised (x : Notice) : Notice := { x with pending := true, count := min 255 (x.count + 1), subject := b }
  if n ∈ weak then s.notices
  else
    { s.notices with
      weak := raised s.notices.weak
      worn := if (joinedWeak weak n).length = 16 then raised s.notices.worn else s.notices.worn }

/-- The fields of a bay after its operation in progress has been answered, and with it its operation in service has ended. -/
def Bay.over (x : Bay) : Bay := { x with op := none, opTimer := 0, opLimit := 0, service := none }

/-- The fields of a bay on which block `n`'s READ BLOCK or WRITE BLOCK has answered MEDIA ERROR (R115, R144). -/
def Bay.mediaError (n : Nat) (x : Bay) : Bay := { x.over with head := n + 1, weak := joinedWeak x.weak n }

/-- No wait entry names the bay. -/
def State.noWaitOn (s : State) (b : Nat) : Prop := ∀ e ∈ s.waits, e.bay ≠ b

/-- The reservations of node links stand for wait entries alone: there is no command record and no return tag, and no hot
trigger that could make a record. -/
def State.quiet (s : State) : Prop :=
  s.records = [] ∧ (∀ k l, s.loan k = some l → l.returnTag = none) ∧ ∀ b, (s.profile b).hotThreshold = 0

/-- R37, R38: from a quiet state, every wait entry on bay `b` whose node is present, and whose node's reservations cover its
wait entries, has been answered REFUSED with the reason. -/
def State.refusedOn (s : State) (b : Nat) (reason : NodeReason) (t : State) : Prop :=
  s.quiet → ∀ e ∈ s.waits, e.bay = b → isNode e.node = true → (s.link e.node).presence = true →
    s.waitCount e.node ≤ (s.link e.node).reserved →
    t.HasPlaced e.node { tag := e.tag, record := .refused reason }

/-- R164, R165: what the drain of bay `b` does to the one record that names it and is not retiring, and to an ACTIVE loan on
the bay that holds no move. A loan the record moves is on its new bay when no command record stands under it, and holds the
move when a command of it waits for buffers or is in service; one that is not moved, or whose new bay is not READY, ends.
(With no wait entry, so that the grant scan that follows grants nothing, and no LOAN ENDED pending on the ACTIVE loan.) -/
def State.drainMoves (s : State) (b : Nat) (t : State) : Prop :=
  s.waits = [] → ∀ i w, s.twin i = some w → w.retiring = false → w.state = .live ∨ w.state = .stale →
    (∀ j v, s.twin j = some v → j ≠ i → v.source ≠ b ∧ v.target ≠ b) → w.source ≠ w.target →
    (w.source = b → t.twin i = some { w with state := .orphan }) ∧
    (w.target = b → ∀ v, t.twin i = some v → v.state = .stale ∧ v.retiring = true) ∧
    ∀ k l, s.loan k = some l → l.state = .active → l.placedBay = b → l.move = none → l.notice ≠ some .loanEnded →
      let idle := ∀ r ∈ s.records, r.loan.slot ≠ k
      let stays (m : HeldMove) : Prop :=
        ∃ x, t.loan k = some x ∧ x.state = .active ∧ x.placedBay = b ∧ x.viaTwin = l.viaTwin ∧ x.move = some m
      let moved (bay : Nat) (via : Option Nat) : Prop :=
        ∃ x, t.loan k = some x ∧ x.state = .active ∧ x.placedBay = bay ∧ x.viaTwin = via ∧ x.move = none
      let ended (reason : EndReason) : Prop :=
        ∀ x, t.loan k = some x → x.state ≠ .active ∧ x.endReason = some reason
      (∀ r, w.source = b → w.state = .live → (s.bay w.target).state = .ready → l.kind = .view → l.viaTwin = none →
        l.range = some r → w.first ≤ r.first → r.last ≤ w.last →
        (idle → moved w.target (some i)) ∧
        (s.workOnBay k = true → stays { bay := w.target, via := some i, reason := .bayReleased })) ∧
      (w.source = b → w.state = .stale → l.viaTwin = none → ended .bayReleased) ∧
      (w.target = b → l.viaTwin = some i → (s.bay w.source).state = .ready →
        (idle → moved w.source none) ∧
        (s.workOnBay k = true → stays { bay := w.source, via := none, reason := .twinDropped })) ∧
      (w.target = b → l.viaTwin = some i → (s.bay w.source).state ≠ .ready → ended .twinDropped)

/-- A record without a reservation can be placed for the node, and no DATA of the node waits for an entry (R72, R172). -/
def State.placeable (s : State) (n : Nat) : Prop := s.hasRoom n = true ∧ (s.link n).waitingData = []

/-- R184: the BAY notice after a reset in which the listed bays, in order, have changed state. -/
def raisedFor (bays : List Nat) : Notice :=
  { pending := !bays.isEmpty, armed := true, count := bays.length, subject := bays.getLast?.getD 0, status := .none }

/-- R178: link `l` after a reset, with `placed` in its outbound queue; its far ready line at its next test is a free value
(log entry 7). -/
def Link.cleared (l : Nat) (x : Link) (placed : List OutRecord) : Link :=
  { Link.initial with
    presence := x.presence, farReady := Config.farReadyLine l x.lineReads, lineReads := x.lineReads + 1, placed := placed
    sending := !placed.isEmpty && Config.farReadyLine l x.lineReads }

/-- What every reset leaves: R26, R60, R79, R85, R149, R151, R178, R186, R192. -/
def State.serviceCleared (s t : State) : Prop :=
  t.waits = [] ∧ t.arrival = 0 ∧ t.records = [] ∧ t.poolFree = 384 ∧ t.poolWait = [] ∧
  t.channels = List.replicate 2 Channel.free ∧ t.twins = List.replicate 6 none ∧ t.saving = none ∧ t.store = s.store ∧
  t.link 0 = (s.link 0).cleared 0 [] ∧
  (∀ n, isNode n = true → t.link n = (s.link n).cleared n
    (if (s.link n).presence then [{ tag := 0, record := .restarted n .reset }] else [])) ∧
  t.notices.cause = { pending := true, armed := true, count := 1, subject := 0, status := .none } ∧
  (∀ k, k ≠ NoticeKind.cause → k ≠ .bay →
    t.notices.get k = { pending := false, armed := true, count := 0, subject := 0, status := .none })

/-- R148, R147, R1: what a pin reset and RESET SHELF keep of the disks and of the loan table, and the states they take the
bays to. -/
def State.disksKept (s t : State) : Prop :=
  (∀ k, k < 96 → t.slot k = { issue := (s.slot k).issue, loan := none }) ∧
  (∀ b, b < 24 →
    ((t.bay b).presence = (s.bay b).presence ∧ (t.bay b).capacity = (s.bay b).capacity ∧
      (t.bay b).weak = (s.bay b).weak ∧ (t.bay b).cursor = (s.bay b).cursor ∧ (t.bay b).head = (s.bay b).head) ∧
    ((s.bay b).state = .ready → (t.bay b).state = .ready ∧ (t.bay b).op = (s.bay b).op ∧ (t.bay b).ring = [] ∧
      (t.bay b).deferral = 0 ∧ (t.bay b).chosen = none ∧ (t.bay b).chunkWrite = none ∧ (t.bay b).upkeepDue = false ∧
      (t.bay b).upkeepTimer = if (t.profile b).upkeepPeriod = 0 then none
        else some { seconds := 0, ticks := 0, period := (t.profile b).upkeepPeriod }) ∧
    ((s.bay b).state = .spinning → (t.bay b).state = .spinWait ∧ (t.bay b).op = none ∧ (t.bay b).powerOnSpin = false) ∧
    ((s.bay b).state = .draining ∨ (s.bay b).state = .stopping →
      (t.bay b).state = .released ∧ (t.bay b).op = none ∧ (t.bay b).faultCause = none) ∧
    ((s.bay b).state = .spinWait → t.bay b = { s.bay b with powerOnSpin := false }) ∧
    ((s.bay b).state = .released ∨ (s.bay b).state = .faulted ∨ (s.bay b).state = .empty → t.bay b = s.bay b)) ∧
  t.spinQueue = ((List.range 24).filter fun b => (s.bay b).state == .spinWait || (s.bay b).state == .spinning) ∧
  t.notices.bay = raisedFor ((List.range 24).filter fun b =>
    (s.bay b).state == .spinning || (s.bay b).state == .draining || (s.bay b).state == .stopping)

end Sys2Proof.Machine
end

