-- ==== Sys2Proof/Certificates/Slice0/Obligations.lean ====
section
/-! DEFINITION. The statements about the model. Each is for every state and every operand its hypotheses allow; the rule of
spec/ that it follows stands in its docstring. A next state written out in full is also the command's frame: what it does
not name is unchanged. That each follow-on step is a command of its own, and that a command that is not due changes nothing,
is the model's choice (log entries 1 and 3). -/

open Sys2Proof Sys2Proof.Machine

/-! ### The step, and links (Chapter 9) -/

/-- The command at the front of the queue runs on the state with the queue's rest. On an empty queue the block idles, which
is the model's choice (log entry 2). -/
def Obligations.StepRunsFront : Prop :=
  (∀ (c : Instr) (rest : List Instr) (s : State),
    step { s with pending := c :: rest } = exec c { s with pending := rest }) ∧
  (∀ s : State, s.pending = [] → step s = .next s)

/-- R169, R170: a receiver that hunts, and is sent any bytes but SYNC and then the bytes of a frame, receives exactly that
frame, with every kind, tag and body; it enters the tail of the inbound queue when that holds fewer than 8 frames. That the
command brings the bytes is the model's choice (log entry 18). -/
def Obligations.FrameArrives : Prop :=
  ∀ (s : State) (l kind tag : Nat) (noise body : List Byte),
    isLink l = true → kind < 256 → tag < 256 → body.length ≤ Config.bodyMax →
    (s.link l).presence = true → (s.link l).receiver = .hunting → 0xA5#8 ∉ noise →
    exec (.frameArrive l (noise ++ frameBytes kind tag body)) s = .next (s.setLink l
      (if (s.link l).inbound.length < Config.inbound then
        { s.link l with inbound := (s.link l).inbound ++ [{ kind := kind, tag := tag, body := body }] }
      else s.link l))

/-- R169, R174: a frame whose CHECK is not the computed value leaves the state as it was; a LENGTH above 4104 after SYNC
leaves the receiver hunting and nothing else changed (log entry 18); a frame of a kind not taken on its link is answered
REJECT UNKNOWN_KIND, place HEADER, offset 3. -/
def Obligations.BadFramesRejected : Prop :=
  (∀ (s : State) (l : Nat) (kind tag : Byte) (noise body check : List Byte),
    isLink l = true → body.length ≤ Config.bodyMax → (s.link l).presence = true → (s.link l).receiver = .hunting →
    0xA5#8 ∉ noise → check.length = 2 →
    check ≠ be16 (crc16 (be16 body.length ++ [kind, tag] ++ body)) →
    exec (.frameArrive l (noise ++ 0xA5#8 :: (be16 body.length ++ [kind, tag] ++ body ++ check))) s = .next s) ∧
  (∀ (s : State) (l length : Nat),
    isLink l = true → Config.bodyMax < length → length ≤ 65535 → (s.link l).presence = true →
    (s.link l).receiver = .hunting ∨ (s.link l).receiver = .inFrame [] →
    exec (.overlongFrameDiscard l length) s = .next (s.setLink l { s.link l with receiver := .hunting })) ∧
  (∀ (s : State) (l : Nat) (f : Frame), isLink l = true → s.CanTake l f.kind 1 f → kindTakenOn l f.kind = false →
    exec (.unknownKindFrame l) s = .next (s.answer l f (.reject .unknownKind .header 3 f.kind)))

/-- R173, R73: the first placed record has been sent and its entry is free; the next record is begun when the far ready
line is high. For a DATA record of a command, its buffer returns to the pool; the record stays while a buffer or its final
reply is outstanding, and else it is freed and its loan's commands field falls (R61; for a loan that does not reach ENDED by
it). When far ready rises, the sending of the first placed record begins. That the far ready line as
the link tests it is an operand, and after a rise a free value, is the model's choice (log entry 7). -/
def Obligations.RecordSentFreesEntry : Prop :=
  (∀ (s : State) (l : Nat) (farReady : Bool) (o : OutRecord) (rest : List OutRecord),
    isLink l = true → s.Settled → (s.link l).sending = true → (s.link l).placed = o :: rest →
    (∀ b i d, o.record ≠ .data b i d) →
    exec (.recordSent l farReady) s = .next (s.setLink l
      { s.link l with placed := rest, farReady := farReady, sending := farReady && !rest.isEmpty })) ∧
  (∀ (s : State) (n : Nat) (farReady : Bool) (o : OutRecord) (rest : List OutRecord) (r : Command) (b i : Nat) (d : Block),
    isNode n = true → s.Settled → (s.link n).sending = true → (s.link n).placed = o :: rest → o.record = .data b i d →
    s.record { node := n, tag := o.tag } = some r → 1 ≤ r.held → r.replied = false ∨ 2 ≤ r.held →
    exec (.recordSent n farReady) s = .next
      { (s.setLink n { s.link n with placed := rest, farReady := farReady, sending := farReady && !rest.isEmpty }).modRecord
          { node := n, tag := o.tag } (fun r => { r with held := r.held - 1 }) with
        poolFree := s.poolFree + 1 }) ∧
  (∀ (s : State) (n : Nat) (farReady : Bool) (o : OutRecord) (rest : List OutRecord) (r : Command) (l : Loan) (b i : Nat)
      (d : Block),
    isNode n = true → s.Settled → (s.link n).sending = true → (s.link n).placed = o :: rest → o.record = .data b i d →
    s.record { node := n, tag := o.tag } = some r → r.held = 1 → r.replied = true →
    s.loan r.loan.slot = some l → l.state = .active ∨ 1 < l.commands →
    exec (.recordSent n farReady) s = .next ((s.withoutRecord r l).setLink n
      { s.link n with placed := rest, farReady := farReady, sending := farReady && !rest.isEmpty })) ∧
  (∀ (s : State) (l : Nat), isLink l = true →
    exec (.farReadyRise l) s = .next (s.setLink l
      { s.link l with farReady := Config.farReadyLine l (s.link l).lineReads, lineReads := (s.link l).lineReads + 1
                      sending := !(s.link l).placed.isEmpty || (s.link l).sending }))

/-- R175, R41, R15, R17: presence falls on a node link. Its queues are empty, its receiver hunts, it waits for no buffers;
no wait entry of the node is left, and every loan record of the node that is left ends LINK_LOST. -/
def Obligations.NodePresenceFallLosesNode : Prop :=
  ∀ (s : State) (n : Nat), isNode n = true → s.Shaped → (s.link n).presence = true →
    Runs (.nodePresenceFall n) s fun t =>
      t.link n = { (s.link n) with presence := false, receiver := .hunting, inbound := [], placed := [], reserved := 0,
                                   sending := false, heldWrite := false, waitingData := [] } ∧
      (∀ w ∈ t.poolWait, w.who ≠ .link n) ∧
      (∀ e ∈ t.waits, e.node ≠ n) ∧
      (∀ k l, t.loan k = some l → l.borrower = n → l.endReason = some .linkLost)

/-- R176: presence rises on a node link whose queues are empty; RESTARTED with tag 0 and origin PRESENCE is the first record
placed, and the receiver hunts. The far ready operand is the model's choice (log entry 7). -/
def Obligations.NodePresenceRisePlacesRestarted : Prop :=
  ∀ (s : State) (n : Nat) (farReady : Bool), isNode n = true → n < s.links.length →
    (s.link n).presence = false → (s.link n).placed = [] → (s.link n).reserved = 0 → (s.link n).sending = false →
    exec (.nodePresenceRise n farReady) s = .next (s.setLink n
      { s.link n with presence := true, farReady := farReady, receiver := .hunting,
                      placed := [{ tag := 0, record := .restarted n .presence }], sending := farReady })

/-- R177: presence of the supervisor link falls: both queues are emptied, every reservation is dropped, that of a SAVE in
progress included, the record being sent is abandoned, the part ready line falls and the receiver hunts. No other
supervisor state changes, and no pending notice is placed while presence is low (log entry 1). When it rises, the part
ready line rises, and no record is placed; the far ready operand is the model's choice (log entry 7). -/
def Obligations.SupervisorPresenceChanges : Prop :=
  (∀ s : State, (s.link 0).presence = true →
    let t : State :=
      { s.setLink 0 { s.link 0 with presence := false, receiver := .hunting, inbound := [], placed := [], reserved := 0,
                                    sending := false, heldWrite := false, waitingData := [] } with
        saving := s.saving.map fun v => { v with tag := none } }
    exec .supervisorPresenceFall s = .next t ∧ (t.link 0).partReady = false) ∧
  (∀ s : State, (s.link 0).presence = false → exec .noticePlace s = .next s) ∧
  (∀ (s : State) (farReady : Bool), 0 < s.links.length → (s.link 0).presence = false → (s.link 0).inbound = [] →
    let t := s.setLink 0 { s.link 0 with presence := true, farReady := farReady, receiver := .hunting }
    exec (.supervisorPresenceRise farReady) s = .next t ∧ (t.link 0).partReady = true)

/-! ### Loans and waiting requests (Chapters 1 to 3) -/

/-- R52: the hold limit is at least the smaller of M and H and at most H; it is H when no entry presses on the loan or M is at
or above H; more pressure never raises it; with H in 10..6000 and M in 5..600 it lies in 5..6000. -/
def Obligations.HoldLimitBounds : Prop :=
  ∀ h m p : Nat,
    holdLimitOf h m p = max (min m h) (4 * h / (4 + p)) ∧ min m h ≤ holdLimitOf h m p ∧ holdLimitOf h m p ≤ h ∧
    holdLimitOf h m 0 = h ∧ (h ≤ m → holdLimitOf h m p = h) ∧
    (∀ q, p ≤ q → holdLimitOf h m q ≤ holdLimitOf h m p) ∧
    (10 ≤ h → h ≤ 6000 → 5 ≤ m → m ≤ 600 → 5 ≤ holdLimitOf h m p ∧ holdLimitOf h m p ≤ 6000)

/-- R24: HOLD. A tag of 0 and a short body are rejected; with no match it is answered NO_LOAN; on an ACTIVE loan it sets
the idle clock to 0 and is answered OK with the hold limit, after which the loan's expiry does not occur; on a loan in
RETURNING, ENDING or ENDED it is answered ENDED with the end reason. Nothing else changes. -/
def Obligations.HoldAnswers : Prop :=
  ∀ (s : State) (n : Nat) (f : Frame), isNode n = true → s.CanTake n kindHold 1 f →
    let id := loanIdAt f.body 0
    (f.tag = 0 → exec (.hold n) s = .next (s.answer n f (.reject .badTag .header 4 kindHold))) ∧
    (f.tag ≠ 0 → f.body.length < 2 →
      exec (.hold n) s = .next (s.answer n f (.reject .badLength .body f.body.length kindHold))) ∧
    (f.tag ≠ 0 → 2 ≤ f.body.length → s.matchLoan (some n) id = none →
      exec (.hold n) s = .next (s.answer n f (.held id .noLoan none none))) ∧
    (∀ l, f.tag ≠ 0 → 2 ≤ f.body.length → s.matchLoan (some n) id = some l → l.state = .active →
      exec (.hold n) s = .next
        ((s.setLoan id.slot { l with idle := 0 }).answer n f (.held id .ok (some l.holdLimit) none))) ∧
    (∀ l, f.tag ≠ 0 → 2 ≤ f.body.length → s.matchLoan (some n) id = some l → l.state = .active → 0 < l.holdLimit →
      id.slot < Config.slots →
      let t := (s.setLoan id.slot { l with idle := 0 }).answer n f (.held id .ok (some l.holdLimit) none)
      exec (.idleClockExpiry id.slot) t = .next t) ∧
    (∀ l, f.tag ≠ 0 → 2 ≤ f.body.length → s.matchLoan (some n) id = some l → l.state ≠ .active →
      exec (.hold n) s = .next (s.answer n f (.held id .ended none l.endReason)))

/-- R25: QUERY is answered LOANS, an entry for each loan record of the node but those ended LINK_LOST, in slot order, with
the values of the moment. -/
def Obligations.QueryListsLoans : Prop :=
  ∀ (s : State) (n : Nat) (f : Frame), isNode n = true → s.CanTake n kindQuery 1 f → f.tag ≠ 0 →
    ∃ entries : List LoansEntry,
      exec (.query n) s = .next (s.answer n f (.loans entries)) ∧
      entries.Pairwise (fun a b => a.id.slot < b.id.slot) ∧
      ∀ e, e ∈ entries ↔ ∃ k l, k < Config.slots ∧ s.loan k = some l ∧ l.borrower = n ∧ l.endReason ≠ some .linkLost ∧
        e = { id := { slot := k, issue := (s.slot k).issue }, askedBay := l.askedBay, placedBay := l.placedBay,
              viaTwin := l.viaTwin, kind := l.kind, cls := l.cls, range := l.range, state := l.state,
              endReason := l.endReason, holdLimit := l.holdLimit, idle := l.idle, commands := l.commands,
              notice := l.notice }

/-- R1, R3, R10, R11, R13: a grantable BORROW becomes a loan in the lowest free slot, with the slot's advanced issue,
placed by R11, its hold limit computed with the asked bay's hold minimum; GRANTED carries it (for a KEEP request, where no
LIVE record overlaps it on the bay). R161: after any KEEP grant, no record on its bay whose range overlaps the loan's is
LIVE. -/
def Obligations.BorrowGranted : Prop :=
  (∀ (s : State) (n : Nat) (f : Frame) (q : BorrowBody) (k : Nat),
    isNode n = true → s.CanTake n kindBorrow (borrowNeeds f.body) f →
    s.borrowHeader n f = none → borrowForm f.body = .ok q →
    let cls := clampClass (s.nodeEntry n).classCap q.cls
    let range := clampRange (s.bay q.bay).capacity q.range
    s.borrowRefusal n q.bay range = none → s.obstacle q.bay q.kind cls range = none →
    (∀ j, j < k → (s.loan j).isSome = true) → k < s.loans.length → s.loan k = none →
    (q.kind = .keep → ∀ w, some w ∈ s.twins → w.state = .live → w.source = q.bay →
      overlaps range (some ⟨w.first, w.last⟩) = false) →
    let issue := ((s.slot k).issue + 1) % 256
    let placement := s.placementTwin q.bay q.kind range
    let limit := holdLimitOf (s.nodeEntry n).holdBase (s.profile q.bay).holdMinimum
      (s.waits.countP fun e => !e.masked && e.bay == q.bay && overlaps e.range range && eitherKeep e.kind q.kind)
    let loan : Loan :=
      { borrower := n, askedBay := q.bay, placedBay := (placement.map Prod.snd).getD q.bay
        viaTwin := placement.map Prod.fst, kind := q.kind, cls := cls, range := range, state := .active
        endReason := none, holdBase := (s.nodeEntry n).holdBase, holdLimit := limit, idle := 0, commands := 0
        notice := none, returnTag := none, move := none }
    exec (.borrow n) s = .next ((s.setSlot k { issue := issue, loan := some loan }).answer n f
      (.granted { slot := k, issue := issue } loan.placedBay q.kind cls range limit))) ∧
  (∀ (s : State) (n : Nat) (f : Frame) (q : BorrowBody),
    isNode n = true → s.CanTake n kindBorrow (borrowNeeds f.body) f →
    s.borrowHeader n f = none → borrowForm f.body = .ok q → q.kind = .keep →
    let range := clampRange (s.bay q.bay).capacity q.range
    s.borrowRefusal n q.bay range = none →
    s.obstacle q.bay q.kind (clampClass (s.nodeEntry n).classCap q.cls) range = none →
    Runs (.borrow n) s fun t => ∀ i w, t.twin i = some w → w.source = q.bay →
      overlaps range (some ⟨w.first, w.last⟩) = true → w.state ≠ .live)

/-- R12, R27, R28, R31, R32: a BORROW that is not grantable now, may wait and finds room becomes a wait entry and is answered
QUEUED, the second entry staying reserved. When the entry is masked, or conflicts with no loan, and the reason is not ORDER,
that is all that happens. R51: for an unmasked entry every loan it conflicts with has its hold limit recomputed (those loans
being ACTIVE and short of the new limit, so that none ends). R33: with reason ORDER, and an entry of its class or a higher
one in its way, the scan that follows leaves it on the list (every other entry being masked or in conflict with a loan). -/
def Obligations.BorrowQueued : Prop :=
  ∀ (s : State) (n : Nat) (f : Frame) (q : BorrowBody) (reason : NodeReason),
    isNode n = true → s.CanTake n kindBorrow 2 f → borrowNeeds f.body = 2 →
    s.borrowHeader n f = none → borrowForm f.body = .ok q →
    let cls := clampClass (s.nodeEntry n).classCap q.cls
    let range := clampRange (s.bay q.bay).capacity q.range
    s.borrowRefusal n q.bay range = none → s.obstacle q.bay q.kind cls range = some reason →
    s.waits.length < Config.waitEntries →
    let e : WaitEntry := { node := n, tag := f.tag, bay := q.bay, kind := q.kind, cls := cls, range := range
                           arrival := s.arrival, masked := masks s.settings.level cls }
    let queued : OutRecord := { tag := f.tag, record := .queued cls reason }
    let t : State := { s.setLink n ((s.link n).kept.placing queued) with
      waits := insertWait e s.waits, arrival := (s.arrival + 1) % 65536 }
    (reason ≠ .order → e.masked = true ∨ s.conflictsTable q.bay q.kind range = false → exec (.borrow n) s = .next t) ∧
    (reason ≠ .order → e.masked = false → s.loans.length = Config.slots →
      (∀ k l, s.loan k = some l → s.conflictsLoan q.bay q.kind range l = true → l.state = .active →
        l.idle < t.holdLimit l) →
      exec (.borrow n) s = .next { t with loans := s.loans.map (fun x => { x with loan := x.loan.map (fun l =>
        if s.conflictsLoan q.bay q.kind range l then { l with holdLimit := t.holdLimit l } else l) }) }) ∧
    (reason = .order → s.WaitsOrdered →
      (∃ x ∈ s.waits, x.masked = false ∧ conflictsEntry q.bay q.kind range x = true ∧ x.cls.rank ≤ cls.rank) →
      (∀ x ∈ s.waits, x.masked = true ∨ ((s.bay x.bay).state.awaitable = true ∧ s.isTwinTarget x.bay = false ∧
        rangeOutside (s.bay x.bay).capacity x.range = false ∧ s.conflictsTable x.bay x.kind x.range = true)) →
      exec (.borrow n) s = .next t) ∧
    Runs (.borrow n) s fun t => t.arrival = (s.arrival + 1) % 65536 ∧ t.HasPlaced n queued

/-- R7, R9, R12, R31: a BORROW that fails a check is answered REJECT or REFUSED at once, the surplus entry released, and
changes nothing else. -/
def Obligations.BorrowAnsweredAtOnce : Prop :=
  ∀ (s : State) (n : Nat) (f : Frame), isNode n = true → s.CanTake n kindBorrow (borrowNeeds f.body) f →
    ((s.nodeEntry n).enabled = false →
      exec (.borrow n) s = .next (s.answer n f (.reject .nodeDisabled .body 0 kindBorrow))) ∧
    ((s.nodeEntry n).enabled = true → f.tag = 0 →
      exec (.borrow n) s = .next (s.answer n f (.reject .badTag .header 4 kindBorrow))) ∧
    ((s.nodeEntry n).enabled = true → f.tag ≠ 0 → s.tagPending n f.tag = true →
      exec (.borrow n) s = .next (s.answer n f (.reject .dupTag .header 4 kindBorrow))) ∧
    (∀ r, s.borrowHeader n f = none → borrowForm f.body = .error r →
      exec (.borrow n) s = .next (s.answer n f (.reject r.reason r.place r.offset kindBorrow))) ∧
    (∀ q, s.borrowHeader n f = none → borrowForm f.body = .ok q →
      let cls := clampClass (s.nodeEntry n).classCap q.cls
      let range := clampRange (s.bay q.bay).capacity q.range
      (∀ r, s.borrowRefusal n q.bay range = some r → exec (.borrow n) s = .next (s.answer n f (.refused r))) ∧
      (∀ r, s.borrowRefusal n q.bay range = none → s.obstacle q.bay q.kind cls range = some r → q.waitAllowed = false →
        exec (.borrow n) s = .next (s.answer n f (.refused r))) ∧
      (∀ r, s.borrowRefusal n q.bay range = none → s.obstacle q.bay q.kind cls range = some r → q.waitAllowed = true →
        Config.waitEntries ≤ s.waits.length → exec (.borrow n) s = .next (s.answer n f (.refused .waitFull))))

/-- R39: WITHDRAW is checked in its order; one that names a wait entry of its node removes it, with REFUSED WITHDRAWN under
the BORROW's tag in the entry's own reservation. -/
def Obligations.WithdrawRemovesEntry : Prop :=
  ∀ (s : State) (n : Nat) (f : Frame), isNode n = true → s.CanTake n kindWithdraw 1 f →
    (f.body.length < 1 → exec (.withdraw n) s = .next (s.answer n f (.reject .badLength .body 0 kindWithdraw))) ∧
    (1 ≤ f.body.length → f.tag = 0 → exec (.withdraw n) s = .next (s.answer n f (.reject .badTag .header 4 kindWithdraw))) ∧
    (1 ≤ f.body.length → f.tag ≠ 0 → (∀ e ∈ s.waits, ¬(e.node = n ∧ e.tag = field f.body 0 1)) →
      exec (.withdraw n) s = .next (s.answer n f (.reject .noTarget .body 0 kindWithdraw))) ∧
    (1 ≤ f.body.length → f.tag ≠ 0 → (∃ e ∈ s.waits, e.node = n ∧ e.tag = field f.body 0 1) → 0 < (s.link n).reserved →
      Runs (.withdraw n) s fun t =>
        (∀ e ∈ t.waits, ¬(e.node = n ∧ e.tag = field f.body 0 1)) ∧ t.waits.Sublist s.waits ∧
        t.HasPlaced n { tag := field f.body 0 1, record := .refused .withdrawn })

/-- R22, R18: RETURN is checked in its order, and a REJECT leaves the loan as it is. One that passes acts by the state of
the loan that its id matches (with no wait entry, so that the scan that follows grants nothing, and a slot is freed for a
loan placed through no twin). An ACTIVE loan with a READ or WRITE on the disk or waiting for buffers is RETURNING, the
RETURN's tag being the return tag, and the command runs on (R16), as do a READ whose DATA is being sent and a stream whose
STREAM END has been placed. R16, R93: of an ACTIVE loan with one command record, a QUEUED READ or WRITE, a GATHERING WRITE
and a stream whose segment is QUEUED end at once with CANCELLED: the final reply is placed, the command leaves the ring, its
buffers return, and RETURNED OK follows it as the slot is freed; such a stream with DATA still to be sent has its STREAM
END placed and keeps its record, the loan RETURNING. A stream whose segment is further on has its closing set to CANCELLED. -/
def Obligations.ReturnActsByState : Prop :=
  ∀ (s : State) (n : Nat) (f : Frame), isNode n = true → s.CanTake n kindReturn 1 f →
    let id := loanIdAt f.body 0
    (f.tag = 0 → exec (.returnLoan n) s = .next (s.answer n f (.reject .badTag .header 4 kindReturn))) ∧
    (f.tag ≠ 0 → s.tagPending n f.tag = true →
      exec (.returnLoan n) s = .next (s.answer n f (.reject .dupTag .header 4 kindReturn))) ∧
    (f.tag ≠ 0 → s.tagPending n f.tag = false → f.body.length < 2 →
      exec (.returnLoan n) s = .next (s.answer n f (.reject .badLength .body f.body.length kindReturn))) ∧
    (f.tag ≠ 0 → s.tagPending n f.tag = false → 2 ≤ f.body.length → s.matchLoan (some n) id = none →
      exec (.returnLoan n) s = .next (s.answer n f (.returned id .noLoan none))) ∧
    (∀ l, f.tag ≠ 0 → s.tagPending n f.tag = false → 2 ≤ f.body.length → s.matchLoan (some n) id = some l →
      (l.state = .active → l.commands = 0 → s.recordsOf id.slot = [] → l.viaTwin = none → s.waits = [] →
        exec (.returnLoan n) s = .next
          ((s.setSlot id.slot { issue := id.issue, loan := none }).answer n f (.returned id .ok none))) ∧
      (∀ r, l.state = .active → l.commands ≠ 0 → s.onlyRecord id.slot r → s.waits = [] →
        let t : State := s.setLoan id.slot
          { l with state := .returning, endReason := some .returned, idle := 0, move := none, returnTag := some f.tag }
        (r.chosen → r.kind ≠ .stream ∨ r.replied = true →
          exec (.returnLoan n) s = .next (t.setLink n (s.link n).kept)) ∧
        (r.chosen → r.kind = .stream → r.replied = false →
          exec (.returnLoan n) s = .next
            ((t.modRecord r.ref fun r => { r with closing := some .cancelled }).setLink n (s.link n).kept)) ∧
        (r.kind = .stream → r.state = .queued → 0 < r.held → r.node = n → 0 < (s.link n).reserved →
          exec (.returnLoan n) s = .next (((t.modRecord r.ref fun r =>
              { r with state := .delivering, carry := 0, replied := true }).modBay l.placedBay (Bay.dropping r.ref)).setLink n
            ((s.link n).kept.replying { tag := r.tag, record := .streamEnd .cancelled r.delivered })))) ∧
      (∀ r out bay, l.state = .active → l.commands = 1 → s.onlyRecord id.slot r → l.viaTwin = none → s.waits = [] →
        r.endsAtOnce .cancelled out bay → r.node = n → 0 < (s.link n).reserved →
        exec (.returnLoan n) s = .next (((s.withoutLoan id.slot r).modBay l.placedBay bay).setLink n
          (((s.link n).taken.replying { tag := r.tag, record := out }).placing
            { tag := f.tag, record := .returned id .ok none }))) ∧
      (l.state = .returning ∨ l.state = .ending → l.returnTag = none →
        exec (.returnLoan n) s = .next
          ((s.setLoan id.slot { l with returnTag := some f.tag }).setLink n (s.link n).kept)) ∧
      (l.state = .returning ∨ l.state = .ending → l.returnTag ≠ none →
        exec (.returnLoan n) s = .next (s.answer n f (.returned id .ended l.endReason))) ∧
      (l.state = .ended → l.viaTwin = none → s.waits = [] →
        exec (.returnLoan n) s = .next
          ((s.setSlot id.slot { issue := id.issue, loan := none }).answer n f (.returned id .ended l.endReason))))

/-- R48, R47, R18: the idle clock of a loan without work reaches its limit: the loan ends HOLD_EXPIRED. With room on its
node's queue LOAN ENDED is placed and the slot freed, in the same step (log entry 27); without, the loan is ENDED with the
notice pending (with no wait entry, for a loan placed through no twin, no other notice of the node pending). -/
def Obligations.IdleClockExpiryEndsLoan : Prop :=
  ∀ (s : State) (k : Nat) (l : Loan), s.Settled → k < Config.slots → s.loan k = some l →
    l.state = .active → l.commands = 0 → l.holdLimit ≤ l.idle → s.recordsOf k = [] → l.viaTwin = none →
    l.returnTag = none → s.waits = [] →
    (∀ j x, j < Config.slots → j ≠ k → s.loan j = some x → x.borrower = l.borrower → x.notice = none) →
    (s.placeable l.borrower →
      exec (.idleClockExpiry k) s = .next ((s.setSlot k { issue := (s.slot k).issue, loan := none }).setLink l.borrower
        ((s.link l.borrower).placing
          { tag := 0, record := .loanEnded { slot := k, issue := (s.slot k).issue } (some .holdExpired) }))) ∧
    (¬ s.placeable l.borrower →
      exec (.idleClockExpiry k) s = .next (s.setLoan k
        { l with state := .ended, endReason := some .holdExpired, idle := 0, move := none, notice := some .loanEnded }))

/-- R18, R19: an entry becomes free, and the pending notice of the node's lowest slot is placed: a LOAN MOVED of an ACTIVE
loan is cleared and the loan stays; a LOAN ENDED frees the slot (for a loan placed through no twin, with no wait entry). A
LOAN MOVED still pending on a loan whose end is decided is not placed: with no other notice of the node pending, nothing
changes (log entry 1). -/
def Obligations.LoanNoticePlaced : Prop :=
  (∀ (s : State) (n k : Nat) (l : Loan), s.Settled → isNode n = true → k < Config.slots → s.loan k = some l →
    l.borrower = n → s.placeable n → (∀ j x, j < k → s.loan j = some x → x.borrower = n → x.notice = none) →
    (l.notice = some .loanMoved → l.state = .active →
      exec (.loanNoticePlace n) s = .next ((s.setLoan k { l with notice := none }).setLink n
        ((s.link n).placing { tag := 0, record := .loanMoved { slot := k, issue := (s.slot k).issue } l.placedBay }))) ∧
    (l.notice = some .loanEnded → l.viaTwin = none → s.waits = [] →
      exec (.loanNoticePlace n) s = .next ((s.setSlot k { issue := (s.slot k).issue, loan := none }).setLink n
        ((s.link n).placing { tag := 0, record := .loanEnded { slot := k, issue := (s.slot k).issue } l.endReason })))) ∧
  (∀ (s : State) (n : Nat), isNode n = true →
    (∀ k l, s.loan k = some l → l.borrower = n → l.notice = none ∨ (l.notice = some .loanMoved ∧ l.state ≠ .active)) →
    exec (.loanNoticePlace n) s = .next s)

/-- R56, R57, R16, R18, R93: RECLAIM, by the loan that its id matches. An ACTIVE loan with no command record is ENDED, and
TAKEN says RECLAIMED and ENDED, also where the slot is freed in the same step (log entry 23, the model's reading): with room
on its node's queue LOAN ENDED is placed and the slot freed, in the same step (log entry 27); without, the notice is
pending. Of an ACTIVE loan with one command record, a QUEUED READ or WRITE, a GATHERING WRITE and a stream whose segment is
QUEUED end at once with RECLAIMED: the final reply is placed, the command leaves the ring, its buffers return, and the loan
is ENDED so; such a stream with DATA still to be sent has its STREAM END placed and keeps its record, the loan ENDING. A
READ or WRITE waiting for buffers or in service has its stop set, a stream further on its closing as well, the loan ENDING;
a READ whose DATA is being sent, and a stream whose STREAM END has been placed, are left as they are. (With no wait entry;
for a loan placed through no twin, no other notice of its node pending, where the slot is freed.) -/
def Obligations.ReclaimActsByState : Prop :=
  ∀ (s : State) (f : Frame), s.CanTake 0 kindReclaim 1 f → f.tag ≠ 0 →
    let id := loanIdAt f.body 0
    (f.body.length < 2 → exec .reclaim s = .next (s.answer 0 f (.reject .badLength .body f.body.length kindReclaim))) ∧
    (2 ≤ f.body.length → s.matchLoan none id = none → exec .reclaim s = .next (s.answer 0 f (.refusedSup .noLoan))) ∧
    (∀ l, 2 ≤ f.body.length → s.matchLoan none id = some l → l.state ≠ .active →
      exec .reclaim s = .next (s.answer 0 f (.takenReclaim id .unchanged l.state l.endReason))) ∧
    (∀ l, 2 ≤ f.body.length → s.matchLoan none id = some l → l.state = .active → l.returnTag = none → s.waits = [] →
      l.borrower ≠ 0 →
      let ended : Loan :=
        { l with state := .ended, endReason := some .reclaimed, idle := 0, move := none, commands := 0
                 notice := some .loanEnded }
      let notice : OutRecord := { tag := 0, record := .loanEnded id (some .reclaimed) }
      let taken (t : State) : State := t.answer 0 f (.takenReclaim id .reclaimed .ended (some .reclaimed))
      let alone : Prop := l.viaTwin = none ∧
        ∀ j x, j < Config.slots → j ≠ id.slot → s.loan j = some x → x.borrower = l.borrower → x.notice = none
      (l.commands = 0 → s.recordsOf id.slot = [] →
        (¬ s.placeable l.borrower → exec .reclaim s = .next (taken (s.setLoan id.slot ended))) ∧
        (s.placeable l.borrower → alone →
          exec .reclaim s = .next (taken ((s.setSlot id.slot { issue := id.issue, loan := none }).setLink l.borrower
            ((s.link l.borrower).placing notice))))) ∧
      (∀ r out bay, l.commands = 1 → s.onlyRecord id.slot r → r.endsAtOnce .reclaimed out bay → r.node = l.borrower →
        (s.link r.node).presence = true → 0 < (s.link r.node).reserved →
        let replied : Link := (s.link r.node).replying { tag := r.tag, record := out }
        (¬ s.placeable l.borrower →
          exec .reclaim s = .next (taken ((((s.withoutLoan id.slot r).setLoan id.slot ended).modBay l.placedBay bay).setLink
            r.node replied))) ∧
        (s.placeable l.borrower → alone →
          exec .reclaim s = .next (taken (((s.withoutLoan id.slot r).modBay l.placedBay bay).setLink r.node
            (replied.placing notice)))))) ∧
    (∀ l r, 2 ≤ f.body.length → s.matchLoan none id = some l → l.state = .active → l.commands ≠ 0 →
      s.onlyRecord id.slot r → s.waits = [] →
      let t : State := s.setLoan id.slot { l with state := .ending, endReason := some .reclaimed, idle := 0, move := none }
      let taken (t : State) : State := t.answer 0 f (.takenReclaim id .reclaimed .ending (some .reclaimed))
      (r.kind ≠ .stream → r.state = .poolWait ∨ r.state = .inService →
        exec .reclaim s = .next (taken (t.modRecord r.ref fun r => { r with stop := true }))) ∧
      (r.chosen → r.kind = .stream → r.replied = false →
        exec .reclaim s = .next (taken (t.modRecord r.ref fun r => { r with closing := some .reclaimed, stop := true }))) ∧
      ((r.kind ≠ .stream ∧ r.state = .delivering) ∨ (r.kind = .stream ∧ r.chosen ∧ r.replied = true) →
        exec .reclaim s = .next (taken t)) ∧
      (r.kind = .stream → r.state = .queued → 0 < r.held → r.node ≠ 0 → (s.link r.node).presence = true →
        0 < (s.link r.node).reserved →
        exec .reclaim s = .next (taken (((t.modRecord r.ref fun r =>
            { r with state := .delivering, carry := 0, replied := true }).modBay l.placedBay (Bay.dropping r.ref)).setLink r.node
          ((s.link r.node).replying { tag := r.tag, record := .streamEnd .reclaimed r.delivered })))))

/-! ### Block commands, streams and the pool (Chapters 4 and 5) -/

/-- R61, R65, R66, R86, R99, R100: a READ or a STREAM that passes its checks makes a record, QUEUED at the end of the loan's
queued commands on its placed bay, and the reservation of its final reply is kept. R167: that is all when the bay's queued
count does not rise to its hot threshold, when the level is LOCKDOWN, and when there is no spare bay or the copy is refused.
When the count rises to the threshold and the copy passes its checks, it is made as by COPY, and the COPY notice says
STARTED (with no wait entry, so that the scan that follows grants nothing). -/
def Obligations.ReadAndStreamQueued : Prop :=
  (∀ (s : State) (n : Nat) (f : Frame) (q : BlocksBody) (l : Loan), isNode n = true → s.CanTake n kindRead 1 f →
    s.commandHeader n f = none → blocksForm f.body = .ok q → s.admission n .read q.id q.first q.count = none →
    s.matchLoan (some n) q.id = some l →
    let r : Command :=
      { node := n, tag := f.tag, loan := q.id, kind := .read, first := q.first, count := q.count, segSize := 0
        total := 0, delivered := 0, segFirst := q.first, state := .queued, held := 0, done := 0, nextIndex := 0
        dataGap := 0, gapTimer := 0, stop := false, carry := 0, closing := none, outcome := none, replied := false
        gathered := [] }
    let queued : State := (s.withRecord r l).modBay l.placedBay fun x =>
      { x with ring := joinRing q.id.slot l.cls r.ref x.ring }
    (s.hotQuiet l.placedBay → exec (.read n) s = .next (queued.setLink n (s.link n).kept)) ∧
    (∀ target c i, s.hotFires l.placedBay target c i → s.waits = [] →
      exec (.read n) s = .next ((queued.hotCopied l.placedBay target c i).setLink n (s.link n).kept))) ∧
  (∀ (s : State) (n : Nat) (f : Frame) (q : StreamBody) (l : Loan), isNode n = true → s.CanTake n kindStream 1 f →
    s.commandHeader n f = none → streamForm f.body = .ok q → s.admission n .stream q.id q.first q.total = none →
    s.matchLoan (some n) q.id = some l →
    let r : Command :=
      { node := n, tag := f.tag, loan := q.id, kind := .stream, first := q.first, count := min q.segSize q.total
        segSize := q.segSize, total := q.total, delivered := 0, segFirst := q.first, state := .queued, held := 0
        done := 0, nextIndex := 0, dataGap := 0, gapTimer := 0, stop := false, carry := 0, closing := none
        outcome := none, replied := false, gathered := [] }
    let queued : State := (s.withRecord r l).modBay l.placedBay fun x =>
      { x with ring := joinRing q.id.slot l.cls r.ref x.ring }
    (s.hotQuiet l.placedBay → exec (.stream n) s = .next (queued.setLink n (s.link n).kept)) ∧
    (∀ target c i, s.hotFires l.placedBay target c i → s.waits = [] →
      exec (.stream n) s = .next ((queued.hotCopied l.placedBay target c i).setLink n (s.link n).kept)))

/-- R64, R65: a READ, STREAM or WRITE that fails a check of its tag or of its body is answered REJECT at once in its
reservation; one that fails admission, DONE or STREAM END with 0 blocks. Nothing else changes. -/
def Obligations.AdmissionAnswers : Prop :=
  ∀ (s : State) (n : Nat) (f : Frame), isNode n = true →
    (∀ q st, s.CanTake n kindRead 1 f → s.commandHeader n f = none → blocksForm f.body = .ok q →
      s.admission n .read q.id q.first q.count = some st → exec (.read n) s = .next (s.answer n f (.done st 0))) ∧
    (∀ q st, s.CanTake n kindStream 1 f → s.commandHeader n f = none → streamForm f.body = .ok q →
      s.admission n .stream q.id q.first q.total = some st →
      exec (.stream n) s = .next (s.answer n f (.streamEnd st 0))) ∧
    (∀ q st, s.CanTake n kindWrite 1 f → s.commandHeader n f = none → blocksForm f.body = .ok q →
      s.admission n .write q.id q.first q.count = some st → exec (.write n) s = .next (s.answer n f (.done st 0))) ∧
    (∀ c kind, (c, kind) ∈ [(Instr.read n, kindRead), (.stream n, kindStream), (.write n, kindWrite)] → s.CanTake n kind 1 f →
      (f.tag = 0 → exec c s = .next (s.answer n f (.reject .badTag .header 4 kind))) ∧
      (f.tag ≠ 0 → s.tagPending n f.tag = true → exec c s = .next (s.answer n f (.reject .dupTag .header 4 kind)))) ∧
    (∀ c kind layout, (c, kind, layout) ∈ [(Instr.read n, kindRead, 7), (.stream n, kindStream, 9), (.write n, kindWrite, 7)] →
      s.CanTake n kind 1 f → s.commandHeader n f = none → f.body.length ≠ layout →
      exec c s = .next (s.answer n f (.reject .badLength .body (min f.body.length layout) kind))) ∧
    (∀ c kind, (c, kind) ∈ [(Instr.read n, kindRead), (.write n, kindWrite)] → s.CanTake n kind 1 f →
      s.commandHeader n f = none → f.body.length = 7 → field f.body 6 1 = 0 ∨ 32 < field f.body 6 1 →
      exec c s = .next (s.answer n f (.reject .badField .body 6 kind))) ∧
    (s.CanTake n kindStream 1 f → s.commandHeader n f = none → f.body.length = 9 →
      (field f.body 6 2 = 0 → exec (.stream n) s = .next (s.answer n f (.reject .badField .body 6 kindStream))) ∧
      (field f.body 6 2 ≠ 0 → field f.body 8 1 = 0 ∨ 32 < field f.body 8 1 →
        exec (.stream n) s = .next (s.answer n f (.reject .badField .body 8 kindStream))))

/-- R66, R81: a WRITE that passes its checks is taken when the pool gives its buffers at once, and its record gathers; else
it stays at the head, its reservation held, and its link joins the pool wait list. -/
def Obligations.WriteTakenOrHeld : Prop :=
  ∀ (s : State) (n : Nat) (f : Frame) (q : BlocksBody) (l : Loan), isNode n = true → s.CanTake n kindWrite 1 f →
    s.commandHeader n f = none → blocksForm f.body = .ok q → s.admission n .write q.id q.first q.count = none →
    s.matchLoan (some n) q.id = some l →
    (s.poolWait = [] → q.count ≤ s.poolFree →
      let r : Command :=
        { node := n, tag := f.tag, loan := q.id, kind := .write, first := q.first, count := q.count, segSize := 0
          total := 0, delivered := 0, segFirst := q.first, state := .gathering, held := q.count, done := 0
          nextIndex := 0, dataGap := (s.nodeEntry n).dataGap, gapTimer := 0, stop := false, carry := 0
          closing := none, outcome := none, replied := false, gathered := [] }
      exec (.write n) s = .next { (s.withRecord r l).setLink n (s.link n).kept with
        poolFree := s.poolFree - q.count }) ∧
    (s.poolWait ≠ [] ∨ s.poolFree < q.count →
      exec (.write n) s = .next
        { s.setLink n { s.link n with reserved := (s.link n).reserved + 1, heldWrite := true } with
          poolWait := s.poolWait ++ [{ who := .link n, count := q.count }] })

/-- R68, R70: a DATA frame for a GATHERING write of an ACTIVE loan. The expected index fills its buffer and restarts the gap
timer; the last index makes the write QUEUED on the loan's placed bay (its hot trigger starting no copy); another index ends
the write DATA_ORDER, its buffers returned. A DATA frame without such a write is discarded. R69: when the gap timer reaches
the data gap, the write ends DATA_LATE, its buffers returned. -/
def Obligations.DataGathers : Prop :=
  (∀ (s : State) (n : Nat) (f : Frame), isNode n = true → s.CanTake n kindData 0 f →
    let ref : CommandRef := { node := n, tag := f.tag }
    (∀ r l, s.record ref = some r → r.state = .gathering → f.body.length = dataBodyBytes →
      s.loan r.loan.slot = some l → l.state = .active → l.endReason = none →
      let r' : Command :=
        { r with gathered := r.gathered ++ [f.body.drop 2], nextIndex := r.nextIndex + 1, gapTimer := 0 }
      (field f.body 0 2 = r.nextIndex → r.nextIndex + 1 ≠ r.count →
        exec (.data n) s = .next ((s.modRecord ref fun _ => r').setLink n (s.link n).taken)) ∧
      (field f.body 0 2 = r.nextIndex → r.nextIndex + 1 = r.count → s.hotQuiet l.placedBay →
        exec (.data n) s = .next (((s.modRecord ref fun _ => { r' with state := .queued }).modBay l.placedBay fun x =>
          { x with ring := joinRing r.loan.slot l.cls ref x.ring }).setLink n (s.link n).taken)) ∧
      (field f.body 0 2 ≠ r.nextIndex → 0 < (s.link n).reserved →
        exec (.data n) s = .next ((s.withoutRecord r l).setLink n
          ((s.link n).taken.replying { tag := f.tag, record := .done .dataOrder 0 })))) ∧
    ((∀ r, s.record ref = some r → r.state ≠ .gathering ∨ f.body.length ≠ dataBodyBytes) →
      exec (.data n) s = .next (s.setLink n (s.link n).taken))) ∧
  (∀ (s : State) (n tag : Nat) (r : Command) (l : Loan), s.Settled → isNode n = true → isTag tag = true →
    s.record { node := n, tag := tag } = some r → r.state = .gathering → r.dataGap ≤ r.gapTimer →
    s.loan r.loan.slot = some l → l.state = .active → l.endReason = none → (s.link n).presence = true → 0 < (s.link n).reserved →
    exec (.dataGapExpiry n tag) s = .next ((s.withoutRecord r l).setLink n
      ((s.link n).replying { tag := tag, record := .done .dataLate 0 })))

/-- R77, R78, R92: CANCEL, by the state of the record it names; one that fails its test is answered REJECT. A stream whose
segment is QUEUED ends at once with STREAM END CANCELLED, and its record stays while it holds a buffer; one further on has
its closing set when it is absent, and left as it stands when present; one whose STREAM END has been placed is left alone. -/
def Obligations.CancelActsByState : Prop :=
  ∀ (s : State) (n : Nat) (f : Frame), isNode n = true →
    let ref : CommandRef := { node := n, tag := field f.body 0 1 }
    let cancelled : OutRecord := { tag := field f.body 0 1, record := .done .cancelled 0 }
    (∀ r l, f.tag ≠ 0 → f.body.length = 1 → s.record ref = some r → s.CanTake n kindCancel 0 f →
      s.loan r.loan.slot = some l → l.state = .active → l.endReason = none →
      (r.kind ≠ .stream → r.state = .queued → 0 < (s.link n).reserved →
        exec (.cancel n) s = .next (((s.withoutRecord r l).modBay l.placedBay fun x =>
          { x with ring := x.ring.filterMap (Member.without ref) }).setLink n ((s.link n).taken.replying cancelled))) ∧
      (r.state = .gathering → 0 < (s.link n).reserved →
        exec (.cancel n) s = .next ((s.withoutRecord r l).setLink n ((s.link n).taken.replying cancelled))) ∧
      (r.kind ≠ .stream → r.state = .poolWait ∨ r.state = .inService ∨ r.state = .delivering →
        exec (.cancel n) s = .next (s.setLink n (s.link n).taken)) ∧
      (r.kind = .stream → r.state = .poolWait ∨ r.state = .inService ∨ r.state = .delivering →
        (r.replied = false → r.closing = none →
          exec (.cancel n) s = .next
            ((s.modRecord ref fun r => { r with closing := some .cancelled }).setLink n (s.link n).taken)) ∧
        (r.replied = true ∨ r.closing ≠ none → exec (.cancel n) s = .next (s.setLink n (s.link n).taken))) ∧
      (r.kind = .stream → r.state = .queued → 0 < (s.link n).reserved →
        let ended : OutRecord := { tag := field f.body 0 1, record := .streamEnd .cancelled r.delivered }
        (r.held = 0 →
          exec (.cancel n) s = .next (((s.withoutRecord r l).modBay l.placedBay (Bay.dropping ref)).setLink n
            ((s.link n).taken.replying ended))) ∧
        (0 < r.held →
          exec (.cancel n) s = .next (((s.modRecord ref fun r =>
              { r with state := .delivering, carry := 0, replied := true }).modBay l.placedBay (Bay.dropping ref)).setLink n
            ((s.link n).taken.replying ended))))) ∧
    (s.CanTake n kindCancel 1 f →
      (f.tag = 0 → exec (.cancel n) s = .next (s.answer n f (.reject .badTag .header 4 kindCancel))) ∧
      (f.tag ≠ 0 → f.body.length ≠ 1 →
        exec (.cancel n) s = .next (s.answer n f (.reject .badLength .body (min f.body.length 1) kindCancel))) ∧
      (f.tag ≠ 0 → f.body.length = 1 → s.record ref = none →
        exec (.cancel n) s = .next (s.answer n f (.reject .noTarget .body 0 kindCancel))))

/-- R87, R90, R94: at a segment boundary with no media error and closing absent, a stream whose blocks are not all delivered
gets its next segment, the carry first, QUEUED on the loan's placed bay (its hot trigger starting no copy); one that met a
media error, whose closing is present, or whose blocks are all delivered, ends with its STREAM END, and its record stays
while a buffer is held. While a held move of the loan is due, the boundary waits for it (log entry 12). -/
def Obligations.SegmentBoundaryDecides : Prop :=
  ∀ (s : State) (n tag : Nat) (r : Command) (l : Loan), s.Settled → isNode n = true → isTag tag = true →
    s.record { node := n, tag := tag } = some r → r.kind = .stream → r.state = .delivering → r.replied = false →
    (∀ w ∈ (s.link n).waitingData, w.tag ≠ tag) →
    s.loan r.loan.slot = some l → l.endReason ≠ some .linkLost →
    (l.move ≠ none → s.workOnBay r.loan.slot = false → exec (.segmentBoundary n tag) s = .next s) ∧
    (∀ count, l.move = none ∨ s.workOnBay r.loan.slot = true →
      r.outcome = none → r.closing = none → (r.carry = 0 → r.delivered ≠ r.total) →
      count = (if 0 < r.carry then r.carry else min r.segSize (r.total - r.delivered)) →
      s.hotQuiet l.placedBay →
      exec (.segmentBoundary n tag) s = .next ((s.modRecord r.ref fun r =>
        { r with segFirst := r.first + r.delivered, count := count, done := 0, carry := 0, state := .queued }).modBay
          l.placedBay fun x => { x with ring := joinRing r.loan.slot l.cls r.ref x.ring })) ∧
    (∀ st, l.move = none ∨ s.workOnBay r.loan.slot = true → (r.outcome = some .mediaError ∧ st = .mediaError) ∨
        (r.outcome = none ∧ (r.closing = some st ∨
          (r.closing = none ∧ r.carry = 0 ∧ r.delivered = r.total ∧ st = .ok))) →
      0 < r.held → (s.link n).presence = true → 0 < (s.link n).reserved →
      exec (.segmentBoundary n tag) s = .next ((s.modRecord r.ref fun r =>
        { r with replied := true, carry := 0 }).setLink n
          ((s.link n).replying { tag := tag, record := .streamEnd st r.delivered })))

/-- R82, R113: the pool serves its head waiter when the free count covers it, and goes on with the next. A bay's chosen
READ or stream segment, or chosen copy chunk read (R155), takes its buffers, becomes the operation in service, and its
first READ BLOCK is issued. R67: a link's held WRITE is checked again; it is answered when a check fails now, and else it
leaves the inbound queue with its record GATHERING. A head waiter that is not covered keeps the list as it stands (log
entry 1). -/
def Obligations.PoolServesHead : Prop :=
  (∀ (s : State) (b count : Nat) (rest : List Waiter), s.Settled →
    s.poolWait = { who := .bay b, count := count } :: rest → count ≤ s.poolFree →
    (∀ ref r, (s.bay b).chosen = some (.command ref) → s.record ref = some r → r.kind ≠ .write →
      let t : State := { (s.modRecord ref fun r => { r with held := r.held + count, state := .inService }).modBay b
          (fun x => { x with service := some (.command ref), chosen := none
                             op := some (.readBlock (r.segFirst + r.done)), opNumber := x.opNumber + 1, opTimer := 0
                             opLimit := (s.profile b).operationTimeout }) with
        poolFree := s.poolFree - count, poolWait := rest }
      exec .poolServe s = exec .poolServe t ∧ (rest = [] → exec .poolServe s = .next t)) ∧
    (∀ c, (s.bay b).chosen = some (.chunkRead c) → c < s.channels.length → (s.channel c).busy = true →
      let t : State := { (s.modChannel c fun x => { x with held := x.held + count, phase := .reading }).modBay b
          (fun x => { x with service := some (.chunkRead c), chosen := none
                             op := some (.readBlock (s.channel c).chunkFirst), opNumber := x.opNumber + 1, opTimer := 0
                             opLimit := (s.profile b).operationTimeout }) with
        poolFree := s.poolFree - count, poolWait := rest }
      exec .poolServe s = exec .poolServe t ∧ (rest = [] → exec .poolServe s = .next t))) ∧
  (∀ (s : State) (n : Nat) (f : Frame) (q : BlocksBody) (rest : List Waiter), s.Settled → isNode n = true →
    s.poolWait = { who := .link n, count := q.count } :: rest → q.count ≤ s.poolFree →
    (s.link n).inbound.head? = some f → (s.link n).presence = true → 0 < (s.link n).reserved → blocksForm f.body = .ok q →
    let taken : Link := { s.link n with inbound := (s.link n).inbound.tail, heldWrite := false }
    let answered (r : Record) : State :=
      { s.setLink n (taken.replying { tag := f.tag, record := r }) with poolWait := rest }
    (s.tagPending n f.tag = true →
      let t := answered (.reject .dupTag .header 4 f.kind)
      exec .poolServe s = exec .poolServe t ∧ (rest = [] → exec .poolServe s = .next t)) ∧
    (∀ st, s.tagPending n f.tag = false → s.admission n .write q.id q.first q.count = some st →
      let t := answered (.done st 0)
      exec .poolServe s = exec .poolServe t ∧ (rest = [] → exec .poolServe s = .next t)) ∧
    (∀ l, s.tagPending n f.tag = false → s.admission n .write q.id q.first q.count = none →
      s.matchLoan (some n) q.id = some l →
      let r : Command :=
        { node := n, tag := f.tag, loan := q.id, kind := .write, first := q.first, count := q.count, segSize := 0
          total := 0, delivered := 0, segFirst := q.first, state := .gathering, held := q.count, done := 0
          nextIndex := 0, dataGap := (s.nodeEntry n).dataGap, gapTimer := 0, stop := false, carry := 0
          closing := none, outcome := none, replied := false, gathered := [] }
      let t : State := { (s.withRecord r l).setLink n taken with poolFree := s.poolFree - q.count, poolWait := rest }
      exec .poolServe s = exec .poolServe t ∧ (rest = [] → exec .poolServe s = .next t))) ∧
  (∀ (s : State) (w : Waiter) (rest : List Waiter), s.Settled → s.poolWait = w :: rest → s.poolFree < w.count →
    exec .poolServe s = .next s)

/-- R72, R89: an entry becomes free, and the oldest waiting DATA record of the node is placed; a stream's count of delivered
blocks rises. (For a READ, while more of its DATA waits or its disk work goes on.) -/
def Obligations.WaitingDataPlaced : Prop :=
  ∀ (s : State) (n : Nat) (w : WaitingData) (rest : List WaitingData) (r : Command), s.Settled → isNode n = true →
    s.hasRoom n = true → (s.link n).waitingData = w :: rest → s.record { node := n, tag := w.tag } = some r →
    let placed : Link :=
      { (s.link n).placing { tag := w.tag, record := .data w.block w.index w.bytes } with waitingData := rest }
    (r.kind = .stream → exec (.dataPlaceWaiting n) s = .next
      ((s.modRecord { node := n, tag := w.tag } fun r => { r with delivered := r.delivered + 1 }).setLink n placed)) ∧
    (r.kind = .read → r.outcome = none ∨ (∃ v ∈ rest, v.tag = w.tag) →
      exec (.dataPlaceWaiting n) s = .next (s.setLink n placed)) ∧
    (∀ st, r.kind = .read → r.outcome = some st → r.replied = false → (∀ v ∈ rest, v.tag ≠ w.tag) → 0 < r.held →
      0 < (s.link n).reserved → s.lost r = false →
      exec (.dataPlaceWaiting n) s = .next
        ((s.modRecord { node := n, tag := w.tag } fun r => { r with replied := true }).setLink n
          (placed.replying { tag := w.tag, record := .done st r.done })))

/-! ### Service order and disk work (Chapters 4, 6, 7 and 8) -/

/-- R108, R116: the cost of a member's head command, from the bay's profile and head as they stand: a base of the block
count, twice that for a WRITE, and a surcharge for the distance. It lies in 1..128; a copy chunk read costs at most 96. -/
def Obligations.CostBaseAndSurcharge : Prop :=
  ∀ (s : State) (b : Nat) (m : Member), (s.profile b).seekCap ≤ 64 →
    let head := (s.bay b).head
    let surcharge (first : Nat) : Nat :=
      let distance := if head ≤ first then first - head else head - first
      if distance = 0 then 0 else min (s.profile b).seekCap (1 + distance / 2 ^ (s.profile b).seekExponent)
    (∀ k ref refs r, m.who = .loan k → m.queued = ref :: refs → s.record ref = some r → 1 ≤ r.count → r.count ≤ 32 →
      s.memberCost b m = (if r.kind = .write then 2 * r.count + surcharge r.first else r.count + surcharge r.segFirst) ∧
      1 ≤ s.memberCost b m ∧ s.memberCost b m ≤ 128) ∧
    (∀ c, m.who = .channel c → 1 ≤ (s.channel c).chunkCount → (s.channel c).chunkCount ≤ 32 →
      s.memberCost b m = (s.channel c).chunkCount + surcharge (s.channel c).chunkFirst ∧
      1 ≤ s.memberCost b m ∧ s.memberCost b m ≤ 96)

/-- R111, R112: with a quantum of 1 or more, the ring step over a ring that is not empty always dispatches one member's head
command, whatever the credits and costs, and adds no member. With a quantum of at most 64, costs of at most 128 and credits
in bounds, it keeps every credit within −128..+383. -/
def Obligations.RingStepDispatches : Prop :=
  ∀ (quantum : Nat) (cost : Member → Nat) (ring : List Member),
    1 ≤ quantum → (∀ m n : Member, m.who = n.who → m.queued = n.queued → cost m = cost n) → ring ≠ [] →
    ∃ m rest, ringStep quantum cost (ringBound cost ring) ring = some (m, rest) ∧
      (∃ n ∈ ring, n.who = m.who ∧ n.queued = m.queued ∧ n.cls = m.cls) ∧
      (∀ x ∈ rest, ∃ y ∈ ring, y.who = x.who ∧ y.cls = x.cls) ∧
      (quantum ≤ 64 → (∀ m, cost m ≤ 128) → (∀ m ∈ ring, m.inBounds) → ∀ x ∈ rest, x.inBounds)

/-- R102 to R105, R113, R142: a dispatch point that is due. Due upkeep that does not give way is dispatched, from the
cursor; else the pending chunk write, which becomes WRITING; else the ring's choice: a WRITE starts, and a READ or stream
segment starts with its buffers or waits for them in POOL_WAIT. Due upkeep gives way to RUSH work while the deferral count
is below 3: the count rises and upkeep stays due (said for a bay with a chunk write pending, which is then dispatched). With
nothing to dispatch nothing happens (log entry 1); no held move stands, for one that is due would go first (log entry 12).
R154, R113: a copy channel chosen by the ring is READING with its buffers, or CHOSEN while it waits for them. R111: a
dispatch point always completes, and at one whose ring is not empty the ring step chooses one of its members, the same under
every larger bound of visits (with a free quantum where the profile's is 0, the model's choice, log entry 17). -/
def Obligations.DispatchPointChooses : Prop :=
  ∀ (s : State) (b : Nat), isBay b = true → (s.bay b).state = .ready → (s.bay b).service = none → (s.bay b).op = none →
    (s.bay b).chosen = none → (∀ k l, s.loan k = some l → l.move = none) →
    (∀ capacity, (s.bay b).upkeepDue = true → (s.bay b).capacity = some capacity →
      (∀ m ∈ (s.bay b).ring, m.cls ≠ .rush) ∨ 3 ≤ (s.bay b).deferral →
      exec (.dispatchPoint b) s = .next (s.modBay b fun x =>
        { x with upkeepDue := false, deferral := 0, service := some .verify
                 op := some (.verifyRun x.cursor (min (s.profile b).upkeepLength (capacity - x.cursor)))
                 opNumber := x.opNumber + 1, opTimer := 0, opLimit := (s.profile b).operationTimeout })) ∧
    (∀ c, (s.bay b).upkeepDue = true → (s.bay b).deferral < 3 → (∃ m ∈ (s.bay b).ring, m.cls = .rush) →
      (s.bay b).chunkWrite = some c →
      exec (.dispatchPoint b) s = .next ((s.modChannel c fun x => { x with phase := .writing }).modBay b fun x =>
        { x with deferral := x.deferral + 1, chunkWrite := none, service := some (.chunkWrite c)
                 op := some (.writeBlock (s.channel c).chunkFirst ((s.channel c).filled.getD 0 []))
                 opNumber := x.opNumber + 1, opTimer := 0, opLimit := (s.profile b).operationTimeout })) ∧
    (∀ c, (s.bay b).upkeepDue = false → (s.bay b).chunkWrite = some c →
      exec (.dispatchPoint b) s = .next ((s.modChannel c fun x => { x with phase := .writing }).modBay b fun x =>
        { x with chunkWrite := none, service := some (.chunkWrite c)
                 op := some (.writeBlock (s.channel c).chunkFirst ((s.channel c).filled.getD 0 []))
                 opNumber := x.opNumber + 1, opTimer := 0, opLimit := (s.profile b).operationTimeout })) ∧
    ((s.bay b).upkeepDue = false → (s.bay b).chunkWrite = none → (s.bay b).ring = [] →
      exec (.dispatchPoint b) s = .next s) ∧
    (∀ m ring k ref refs r, (s.bay b).upkeepDue = false → (s.bay b).chunkWrite = none →
      s.ringChoice b = some (m, ring) →
      m.who = .loan k → m.queued = ref :: refs → s.record ref = some r →
      (r.kind = .write → exec (.dispatchPoint b) s = .next
        ((s.modRecord ref fun r => { r with state := .inService }).modBay b fun x =>
          { x with ring := ring, service := some (.command ref)
                   op := some (.writeBlock (r.first + r.done) (r.gathered.getD r.done []))
                   opNumber := x.opNumber + 1, opTimer := 0, opLimit := (s.profile b).operationTimeout })) ∧
      (r.kind ≠ .write → s.poolWait = [] → r.count ≤ s.poolFree → exec (.dispatchPoint b) s = .next
        { (s.modRecord ref fun r => { r with held := r.held + r.count, state := .inService }).modBay b (fun x =>
            { x with ring := ring, service := some (.command ref), op := some (.readBlock (r.segFirst + r.done))
                     opNumber := x.opNumber + 1, opTimer := 0, opLimit := (s.profile b).operationTimeout }) with
          poolFree := s.poolFree - r.count }) ∧
      (r.kind ≠ .write → s.poolWait ≠ [] ∨ s.poolFree < r.count → exec (.dispatchPoint b) s = .next
        { (s.modRecord ref fun r => { r with state := .poolWait }).modBay b (fun x =>
            { x with ring := ring, chosen := some (.command ref) }) with
          poolWait := s.poolWait ++ [{ who := .bay b, count := r.count }] })) ∧
    (∀ m ring c, (s.bay b).upkeepDue = false → (s.bay b).chunkWrite = none →
      s.ringChoice b = some (m, ring) →
      m.who = .channel c → c < s.channels.length → (s.channel c).busy = true →
      let count := (s.channel c).chunkCount
      (s.poolWait = [] → count ≤ s.poolFree → exec (.dispatchPoint b) s = .next
        { (s.modChannel c fun x => { x with held := x.held + count, phase := .reading }).modBay b (fun x =>
            { x with ring := ring, service := some (.chunkRead c), op := some (.readBlock (s.channel c).chunkFirst)
                     opNumber := x.opNumber + 1, opTimer := 0, opLimit := (s.profile b).operationTimeout }) with
          poolFree := s.poolFree - count }) ∧
      (s.poolWait ≠ [] ∨ s.poolFree < count → exec (.dispatchPoint b) s = .next
        { (s.modChannel c fun x => { x with phase := .chosen }).modBay b (fun x =>
            { x with ring := ring, chosen := some (.chunkRead c) }) with
          poolWait := s.poolWait ++ [{ who := .bay b, count := count }] })) ∧
    (∃ t, exec (.dispatchPoint b) s = .next t) ∧
    ((s.bay b).ring ≠ [] → ∃ m ring, s.ringChoice b = some (m, ring) ∧
      (∃ n ∈ (s.bay b).ring, n.who = m.who ∧ n.queued = m.queued ∧ n.cls = m.cls) ∧
      ((s.profile b).quantum ≠ 0 → ∀ fuel, ringBound (s.memberCost b) (s.bay b).ring ≤ fuel →
        ringStep (s.profile b).quantum (s.memberCost b) fuel (s.bay b).ring = some (m, ring)))

/-- R71, R72, R74, R115, R125: a READ BLOCK of a READ or stream segment answers OK, not the last and with no stop set, and
the node's queue has room: DATA is placed with its index, blocks done rises (and a stream's blocks delivered, R89), the
head is the next block, and the next READ BLOCK is issued. An answer to another operation is discarded; that operations
are numbered is the model's choice (log entry 10). R58: the last block answers OK, or an earlier one with stop set: the
bay's operation is over, the record delivers with the outcome OK, or RECLAIMED at a stop, and its unread buffers return.
The DONE of a READ follows its last DATA at once, or waits behind DATA that waits for entries; a stream's segment
goes on to its boundary. R74, R91, R144: the block answers MEDIA ERROR: it joins the weak list, the buffers of it and of
the later blocks return, and the outcome is MEDIA_ERROR, with the DONE of a READ as before; a READ that then holds no
buffer is freed. -/
def Obligations.ReadBlockAnswered : Prop :=
  (∀ (s : State) (b number block : Nat) (ref : CommandRef) (r : Command) (data : Block), isBay b = true → s.Settled →
    data.length = Config.blockBytes → (s.bay b).op = some (.readBlock block) → (s.bay b).opNumber = number →
    (s.bay b).service = some (.command ref) → s.record ref = some r → r.segFirst + r.done = block →
    r.done + 1 < r.count → r.stop = false → s.lost r = false →
    let next (x : Bay) : Bay :=
      { x with head := block + 1, op := some (.readBlock (block + 1)), opNumber := x.opNumber + 1, opTimer := 0
               opLimit := (s.profile b).operationTimeout }
    (s.placeable ref.node →
      exec (.readBlockAnswer b number (.ok data)) s = .next (((s.modRecord ref fun r =>
          { r with done := r.done + 1, delivered := if r.kind = .stream then r.delivered + 1 else r.delivered }).modBay b
            next).setLink ref.node
        ((s.link ref.node).placing { tag := ref.tag, record := .data block (block - r.first) data }))) ∧
    (¬ s.placeable ref.node → (s.link ref.node).presence = true →
      exec (.readBlockAnswer b number (.ok data)) s = .next
        (((s.modRecord ref fun r => { r with done := r.done + 1 }).modBay b next).setLink ref.node
          { s.link ref.node with waitingData := (s.link ref.node).waitingData ++
              [{ tag := ref.tag, block := block, index := block - r.first, bytes := data }] }))) ∧
  (∀ (s : State) (b number : Nat) (o : ReadOutcome), isBay b = true → o.wellFormed = true →
    (s.bay b).opNumber ≠ number → exec (.readBlockAnswer b number o) s = .next s) ∧
  (∀ (s : State) (b number block : Nat) (ref : CommandRef) (r : Command), isBay b = true → s.Settled →
    (s.bay b).op = some (.readBlock block) → (s.bay b).opNumber = number →
    (s.bay b).service = some (.command ref) → s.record ref = some r → r.segFirst + r.done = block →
    s.lost r = false → (s.link ref.node).presence = true →
    (∀ data : Block, data.length = Config.blockBytes → r.done + 1 = r.count ∨ (r.done + 1 < r.count ∧ r.stop = true) →
      let back := r.count - (r.done + 1)
      let outcome : Status := if r.done + 1 = r.count then .ok else .reclaimed
      let index := block - r.first
      back < r.held →
      (r.kind = .read → ¬ s.placeable ref.node →
        exec (.readBlockAnswer b number (.ok data)) s = .next
          { ((s.modRecord ref fun r => { r with done := r.done + 1, held := r.held - back, state := .delivering
                                                outcome := some outcome }).modBay b fun x =>
                { x.over with head := block + 1 }).setLink ref.node
              { s.link ref.node with waitingData := (s.link ref.node).waitingData ++
                  [{ tag := ref.tag, block := block, index := index, bytes := data }] } with
            poolFree := s.poolFree + back }) ∧
      (r.kind = .read → r.replied = false → s.placeable ref.node → 0 < (s.link ref.node).reserved →
        exec (.readBlockAnswer b number (.ok data)) s = .next
          { ((s.modRecord ref fun r => { r with done := r.done + 1, held := r.held - back, state := .delivering
                                                outcome := some outcome, replied := true }).modBay b fun x =>
                { x.over with head := block + 1 }).setLink ref.node
              (((s.link ref.node).placing { tag := ref.tag, record := .data block index data }).replying
                { tag := ref.tag, record := .done outcome (r.done + 1) }) with
            poolFree := s.poolFree + back }) ∧
      (r.kind = .stream → s.placeable ref.node →
        exec (.readBlockAnswer b number (.ok data)) s = .next
          { ((s.modRecord ref fun r => { r with done := r.done + 1, delivered := r.delivered + 1, held := r.held - back
                                                state := .delivering, outcome := none }).modBay b fun x =>
                { x.over with head := block + 1 }).setLink ref.node
              ((s.link ref.node).placing { tag := ref.tag, record := .data block index data }) with
            poolFree := s.poolFree + back }) ∧
      (r.kind = .stream → ¬ s.placeable ref.node →
        exec (.readBlockAnswer b number (.ok data)) s = .next
          { ((s.modRecord ref fun r => { r with done := r.done + 1, held := r.held - back, state := .delivering
                                                outcome := none }).modBay b fun x =>
                { x.over with head := block + 1 }).setLink ref.node
              { s.link ref.node with waitingData := (s.link ref.node).waitingData ++
                  [{ tag := ref.tag, block := block, index := index, bytes := data }] } with
            poolFree := s.poolFree + back })) ∧
    (let back := r.count - r.done;
      back ≤ r.held →
      (r.kind = .stream ∨ (r.kind = .read ∧ ∃ w ∈ (s.link ref.node).waitingData, w.tag = ref.tag) →
        exec (.readBlockAnswer b number .mediaError) s = .next
          { (s.modRecord ref fun r => { r with held := r.held - back, state := .delivering
                                               outcome := some .mediaError }).modBay b (Bay.mediaError block) with
            poolFree := s.poolFree + back, notices := s.weakNotices b (s.bay b).weak block }) ∧
      (r.kind = .read → r.replied = false → (∀ w ∈ (s.link ref.node).waitingData, w.tag ≠ ref.tag) →
        0 < (s.link ref.node).reserved →
        let done : OutRecord := { tag := ref.tag, record := .done .mediaError r.done }
        (back < r.held →
          exec (.readBlockAnswer b number .mediaError) s = .next
            { ((s.modRecord ref fun r => { r with held := r.held - back, state := .delivering
                                                  outcome := some .mediaError, replied := true }).modBay b
                  (Bay.mediaError block)).setLink ref.node ((s.link ref.node).replying done) with
              poolFree := s.poolFree + back, notices := s.weakNotices b (s.bay b).weak block }) ∧
        (∀ l, back = r.held → s.loan r.loan.slot = some l → l.state = .active ∨ 1 < l.commands →
          exec (.readBlockAnswer b number .mediaError) s = .next
            { ((s.withoutRecord r l).modBay b (Bay.mediaError block)).setLink ref.node
                ((s.link ref.node).replying done) with
              notices := s.weakNotices b (s.bay b).weak block }))))

/-- R75, R145, R115: a WRITE BLOCK of a WRITE answers OK. The block leaves the weak list and the head is the next block;
not the last, the next WRITE BLOCK is issued; the last, the WRITE ends DONE OK with every buffer returned. R58: with stop
set it ends so DONE RECLAIMED, with the blocks written. R144: the block answers MEDIA ERROR: it joins the weak list, and
the WRITE ends so DONE MEDIA_ERROR, with the blocks before it. (Its loan is ACTIVE, or has another command record, so that
the loan does not reach ENDED.) -/
def Obligations.WriteBlockOk : Prop :=
  ∀ (s : State) (b number block : Nat) (bytes : Block) (ref : CommandRef) (r : Command) (l : Loan), isBay b = true →
    s.Settled → (s.bay b).op = some (.writeBlock block bytes) → (s.bay b).opNumber = number →
    (s.bay b).service = some (.command ref) → s.record ref = some r → r.kind = .write →
    s.loan r.loan.slot = some l → l.state = .active ∨ 1 < l.commands → l.endReason ≠ some .linkLost →
    (s.link ref.node).presence = true → 0 < (s.link ref.node).reserved →
    let ended (done : Record) (f : Bay → Bay) : State :=
      ((s.withoutRecord r l).modBay b f).setLink ref.node ((s.link ref.node).replying { tag := ref.tag, record := done })
    let written (x : Bay) : Bay := { x.over with head := block + 1, weak := x.weak.filter (fun n => n != block) }
    (r.done + 1 < r.count → r.stop = false →
      exec (.writeBlockAnswer b number .ok) s = .next ((s.modRecord ref fun r => { r with done := r.done + 1 }).modBay b
        fun x => { x with head := block + 1, weak := x.weak.filter (fun n => n != block)
                          op := some (.writeBlock (r.first + r.done + 1) (r.gathered.getD (r.done + 1) []))
                          opNumber := x.opNumber + 1, opTimer := 0, opLimit := (s.profile b).operationTimeout })) ∧
    (r.done + 1 = r.count →
      exec (.writeBlockAnswer b number .ok) s = .next (ended (.done .ok r.count) written)) ∧
    (r.done + 1 < r.count → r.stop = true →
      exec (.writeBlockAnswer b number .ok) s = .next (ended (.done .reclaimed (r.done + 1)) written)) ∧
    exec (.writeBlockAnswer b number .mediaError) s = .next
      { ended (.done .mediaError r.done) (Bay.mediaError block) with
        notices := s.weakNotices b (s.bay b).weak block }

/-- R155, R156: in READING, each OK fills a buffer of the channel and the last one hands the chunk write to the target
bay; in WRITING, each OK issues the next WRITE BLOCK and the last one returns the buffers. With blocks left to copy the
next chunk read joins the source's ring; with none the copy is complete: the record is LIVE without a channel, the channel
is free, and the COPY notice carries DONE (with no wait entry; the free channel's twin and chunk of 0 are the model's
choice, log entry 24). R157: with the end status HALTED the chunk runs whole, and with ABORTED no further block of it is
started; a block that answers MEDIA ERROR joins the weak list, and the end status is ABORTED whatever it was. The channel
then has no unit (its buffers returned by a chunk write that ran whole), and COPY_END ends the copy (log entry 22). -/
def Obligations.CopyChunksMove : Prop :=
  (∀ (s : State) (b number block c : Nat) (data : Block) (w : Twin), isBay b = true → s.Settled →
    c < s.channels.length → data.length = Config.blockBytes →
    (s.bay b).op = some (.readBlock block) → (s.bay b).opNumber = number →
    (s.bay b).service = some (.chunkRead c) → (s.channel c).endStatus = none → s.twin (s.channel c).twin = some w →
    w.target ≠ b →
    ((s.channel c).filled.length + 1 < (s.channel c).chunkCount →
      exec (.readBlockAnswer b number (.ok data)) s = .next ((s.modChannel c fun x =>
          { x with filled := x.filled ++ [data] }).modBay b fun x =>
        { x with head := block + 1
                 op := some (.readBlock ((s.channel c).chunkFirst + (s.channel c).filled.length + 1))
                 opNumber := x.opNumber + 1, opTimer := 0, opLimit := (s.profile b).operationTimeout })) ∧
    ((s.channel c).filled.length + 1 = (s.channel c).chunkCount →
      exec (.readBlockAnswer b number (.ok data)) s = .next (((s.modChannel c fun x =>
          { x with filled := x.filled ++ [data], phase := .pending }).modBay b fun x =>
        { x with head := block + 1, op := none, opTimer := 0, opLimit := 0, service := none }).modBay w.target fun x =>
        { x with chunkWrite := some c }))) ∧
  (∀ (s : State) (b number block c : Nat) (bytes : Block) (w : Twin), isBay b = true → s.Settled →
    c < s.channels.length → (s.bay b).op = some (.writeBlock block bytes) → (s.bay b).opNumber = number →
    (s.bay b).service = some (.chunkWrite c) → (s.channel c).endStatus = none →
    (s.channel c).twin < s.twins.length → s.twin (s.channel c).twin = some w → w.source ≠ b →
    let i := block + 1 - (s.channel c).chunkFirst
    (i ≠ (s.channel c).chunkCount →
      exec (.writeBlockAnswer b number .ok) s = .next (s.modBay b fun x =>
        { x with head := block + 1, weak := x.weak.filter (fun n => n != block)
                 op := some (.writeBlock (block + 1) ((s.channel c).filled.getD i []))
                 opNumber := x.opNumber + 1, opTimer := 0, opLimit := (s.profile b).operationTimeout })) ∧
    (i = (s.channel c).chunkCount → w.last < w.next + (s.channel c).chunkCount → s.waits = [] →
      exec (.writeBlockAnswer b number .ok) s = .next
        { ((s.setTwin (s.channel c).twin (some
              { w with next := w.next + (s.channel c).chunkCount, state := .live, channel := none })).setChannel c
            Channel.free).modBay b (fun x =>
              { x with head := block + 1, weak := x.weak.filter (fun n => n != block), op := none, opTimer := 0, opLimit := 0
                       service := none }) with
          poolFree := s.poolFree + (s.channel c).held
          notices := { s.notices with copy := { s.notices.copy with
            pending := true, count := min 255 (s.notices.copy.count + 1), subject := (s.channel c).twin
            status := .done } } }) ∧
    (i = (s.channel c).chunkCount → w.next + (s.channel c).chunkCount ≤ w.last →
    exec (.writeBlockAnswer b number .ok) s = .next
      { (((s.setTwin (s.channel c).twin (some { w with next := w.next + (s.channel c).chunkCount })).modChannel c fun x =>
            { x with held := 0, filled := [], phase := .queued, chunkFirst := w.next + x.chunkCount
                     chunkCount := min 32 (w.last - (w.next + x.chunkCount) + 1) }).modBay b fun x =>
          { x with head := block + 1, weak := x.weak.filter (fun n => n != block), op := none, opTimer := 0, opLimit := 0
                   service := none }).modBay w.source (fun x =>
            { x with ring := x.ring ++ [{ who := .channel c, cls := .bulk, credit := 0, visited := false, queued := [] }] })
        with poolFree := s.poolFree + (s.channel c).held })) ∧
  (∀ (s : State) (b number block c : Nat) (data : Block) (e : CopyEnd), isBay b = true → s.Settled →
    c < s.channels.length → data.length = Config.blockBytes →
    (s.bay b).op = some (.readBlock block) → (s.bay b).opNumber = number →
    (s.bay b).service = some (.chunkRead c) → (s.channel c).endStatus = some e →
    let last := (s.channel c).filled.length + 1 = (s.channel c).chunkCount
    (last ∨ e = .aborted →
      exec (.readBlockAnswer b number (.ok data)) s = .next ((s.modChannel c fun x =>
          { x with filled := x.filled ++ [data], phase := .none }).modBay b fun x => { x.over with head := block + 1 })) ∧
    (¬last → e = .halted →
      exec (.readBlockAnswer b number (.ok data)) s = .next ((s.modChannel c fun x =>
          { x with filled := x.filled ++ [data] }).modBay b fun x =>
        { x with head := block + 1
                 op := some (.readBlock ((s.channel c).chunkFirst + (s.channel c).filled.length + 1))
                 opNumber := x.opNumber + 1, opTimer := 0, opLimit := (s.profile b).operationTimeout }))) ∧
  (∀ (s : State) (b number block c : Nat) (bytes : Block) (w : Twin) (e : CopyEnd), isBay b = true → s.Settled →
    c < s.channels.length → (s.bay b).op = some (.writeBlock block bytes) → (s.bay b).opNumber = number →
    (s.bay b).service = some (.chunkWrite c) → (s.channel c).endStatus = some e →
    s.twin (s.channel c).twin = some w →
    let i := block + 1 - (s.channel c).chunkFirst
    let written (x : Bay) : Bay := { x with head := block + 1, weak := x.weak.filter (fun n => n != block) }
    (i = (s.channel c).chunkCount →
      exec (.writeBlockAnswer b number .ok) s = .next
        { ((s.setTwin (s.channel c).twin (some { w with next := w.next + (s.channel c).chunkCount })).modChannel c fun x =>
              { x with held := 0, filled := [], phase := .none }).modBay b (fun x => (written x).over) with
          poolFree := s.poolFree + (s.channel c).held }) ∧
    (i ≠ (s.channel c).chunkCount → e = .aborted →
      exec (.writeBlockAnswer b number .ok) s = .next ((s.modChannel c fun x => { x with phase := .none }).modBay b fun x =>
        (written x).over)) ∧
    (i ≠ (s.channel c).chunkCount → e = .halted →
      exec (.writeBlockAnswer b number .ok) s = .next (s.modBay b fun x =>
        { written x with op := some (.writeBlock (block + 1) ((s.channel c).filled.getD i []))
                         opNumber := x.opNumber + 1, opTimer := 0, opLimit := (s.profile b).operationTimeout }))) ∧
  (∀ (s : State) (b number block c : Nat), isBay b = true → s.Settled → (s.bay b).opNumber = number →
    let failed : State :=
      { (s.modChannel c fun x => { x with phase := .none, endStatus := some .aborted }).modBay b (Bay.mediaError block) with
        notices := s.weakNotices b (s.bay b).weak block }
    ((s.bay b).op = some (.readBlock block) → (s.bay b).service = some (.chunkRead c) →
      exec (.readBlockAnswer b number .mediaError) s = .next failed) ∧
    (∀ bytes, (s.bay b).op = some (.writeBlock block bytes) → (s.bay b).service = some (.chunkWrite c) →
      exec (.writeBlockAnswer b number .mediaError) s = .next failed))

/-- R144: a block joins a weak list at the end, the oldest leaving a full list; WEAK occurs, and WORN when 16 entries stand
after the join; a block listed already changes nothing. -/
def Obligations.WeakListJoin : Prop :=
  ∀ (s : State) (b n : Nat), b < s.bays.length →
    let weak := (s.bay b).weak
    (n ∈ weak → weakJoin b n s = s) ∧
    (n ∉ weak → weak.length < 15 →
      weakJoin b n s = { s.modBay b (fun x => { x with weak := x.weak ++ [n] }) with
        notices := { s.notices with weak := { s.notices.weak with
          pending := true, count := min 255 (s.notices.weak.count + 1), subject := b } } }) ∧
    (n ∉ weak → weak.length = 15 ∨ weak.length = 16 →
      weakJoin b n s = { s.modBay b (fun x =>
          { x with weak := (if x.weak.length = 16 then x.weak.tail else x.weak) ++ [n] }) with
        notices := { s.notices with
          weak := { s.notices.weak with pending := true, count := min 255 (s.notices.weak.count + 1), subject := b }
          worn := { s.notices.worn with pending := true, count := min 255 (s.notices.worn.count + 1), subject := b } } })

/-- R143, R144, R145, R141, R115: a VERIFY RUN is answered. OK: the run's blocks leave the weak list, and the cursor and
the head stand after the run. MEDIA ERROR on block `n` of the run: the blocks before it leave the list and `n` joins it
(in that order, log entry 36), and both stand after `n`. The cursor is 0 at the capacity, the upkeep timer starts again
(where upkeep is due already, as only after a reset, that is the model's choice, log entry 37), and the operation in
service is over. -/
def Obligations.VerifyRunMovesCursor : Prop :=
  ∀ (s : State) (b number first count : Nat), isBay b = true → s.Settled →
    (s.bay b).op = some (.verifyRun first count) → (s.bay b).opNumber = number →
    let timer : Option UpkeepTimer :=
      if (s.profile b).upkeepPeriod = 0 then none else some { seconds := 0, ticks := 0, period := (s.profile b).upkeepPeriod }
    let without (verified : Nat) : List Nat := (s.bay b).weak.filter (fun m => !(first ≤ m && m < verified))
    let after (x : Bay) (past : Nat) (weak : List Nat) : Bay :=
      { x.over with weak := weak, head := past, cursor := if x.capacity = some past then 0 else past, upkeepTimer := timer }
    exec (.verifyRunAnswer b number .ok) s = .next (s.modBay b fun x => after x (first + count) (without (first + count))) ∧
    (∀ n, first ≤ n → n < first + count →
      exec (.verifyRunAnswer b number (.mediaError n)) s = .next
        { s.modBay b (fun x => after x (n + 1) (joinedWeak (without n) n)) with notices := s.weakNotices b (without n) n })

/-! ### Bays (Chapter 7) -/

/-- R123: presence rises. A bay in EMPTY clears its fault cause, and enters SPIN_WAIT at the tail of the spin queue with
power-on spin no (R147) when its profile is enabled; in any other state only the line changes. R124: presence falls on a
bay that serves no loan. It enters EMPTY with its items cleared; from SPIN_WAIT it leaves the spin queue; from SPIN_WAIT
and SPINNING no wait entry on it is left, each having been answered REFUSED NO_BAY (R37, R38; from a quiet state); from
STOPPING, RELEASED and FAULTED there is no further action. -/
def Obligations.BayPresenceMoves : Prop :=
  (∀ (s : State) (b : Nat), isBay b = true → b < s.bays.length → (s.bay b).presence = false →
    ((s.bay b).state = .empty → (s.profile b).enabled = true →
      exec (.bayPresenceRise b) s = .next
        { s.modBay b (fun x => { x with presence := true, state := .spinWait, faultCause := none, powerOnSpin := false }) with
          spinQueue := s.spinQueue ++ [b], notices := s.bayNotice b }) ∧
    ((s.bay b).state = .empty → (s.profile b).enabled = false →
      exec (.bayPresenceRise b) s = .next (s.modBay b fun x => { x with presence := true, faultCause := none })) ∧
    ((s.bay b).state ≠ .empty →
      exec (.bayPresenceRise b) s = .next (s.modBay b fun x => { x with presence := true }))) ∧
  (∀ (s : State) (b : Nat), isBay b = true → (s.bay b).presence = true →
    let emptied (x : Bay) : Bay :=
      { x with presence := false, state := .empty, faultCause := none, capacity := none, head := 0, cursor := 0
               upkeepTimer := none, upkeepDue := false, powerOnSpin := false, op := none, opTimer := 0, opLimit := 0
               weak := [] }
    ((s.bay b).state = .spinWait ∨ (s.bay b).state = .spinning →
      Runs (.bayPresenceFall b) s fun t =>
        { t.bay b with ring := [] } = { emptied (s.bay b) with ring := [] } ∧ t.noWaitOn b ∧
        ((s.bay b).state = .spinWait → b ∉ t.spinQueue) ∧ t.notices = s.bayNotice b ∧ s.refusedOn b .noBay t) ∧
    (s.Settled → (s.bay b).state = .stopping ∨ (s.bay b).state = .released ∨ (s.bay b).state = .faulted →
      exec (.bayPresenceFall b) s = .next { s.modBay b emptied with notices := s.bayNotice b }))

/-- R131, R132, R124, R118, R83: a READY or DRAINING bay faults for want of an answer, or its disk is pulled. After the
handling it is FAULTED or EMPTY with its cause, has no operation, unit, ring or upkeep, waits for no buffers, and no wait
entry names it, each having been answered REFUSED NO_BAY (R37, R38; from a quiet state); and no loan is left placed on it:
each has been moved or its end has been decided. R162: a covered VIEW loan without a command record is on the READY target
of the bay's LIVE or STALE record, which is ORPHAN. R163: such a loan through a record whose target bay has faulted is
back on the READY source (both with no wait entry, and no other record on the bay). R74, R75: a WRITE in service ends DONE
BAY_FAULT with its blocks done and is freed; a READ ends so, behind the DATA of the completed blocks, and stays while a
buffer of theirs is held. R95, R96: a stream segment in service is cut: the buffers of the blocks not completed return, no
STREAM END is placed, and the carry is the blocks not completed; its closing is BAY_FAULT when its loan ends with the fault
(no record naming the bay), and as it was, the carry kept, when the record that covers its loan moves it. (The command
stands on no ring, and its loan holds no move.) -/
def Obligations.FaultLeavesNoLoan : Prop :=
  ∀ (s : State) (b : Nat), isBay b = true → s.Shaped → (s.bay b).state = .ready ∨ (s.bay b).state = .draining →
    let cleared (t : State) : Prop :=
      (t.bay b).op = none ∧ (t.bay b).service = none ∧ (t.bay b).chosen = none ∧ (t.bay b).chunkWrite = none ∧
      (t.bay b).ring = [] ∧ (t.bay b).deferral = 0 ∧ (t.bay b).upkeepTimer = none ∧ (t.bay b).upkeepDue = false ∧
      t.noWaitOn b ∧ s.refusedOn b .noBay t ∧ (∀ w ∈ t.poolWait, w.who ≠ .bay b) ∧
      (∀ k l, t.loan k = some l → ¬(l.state = .active ∧ l.placedBay = b))
    (∀ op, (s.bay b).op = some op → isService op = true → (s.bay b).opLimit ≤ (s.bay b).opTimer →
      Runs (.operationNoAnswer b) s fun t =>
        (t.bay b).state = .faulted ∧ (t.bay b).faultCause = some .noAnswer ∧ (t.bay b).capacity = (s.bay b).capacity ∧
        (t.bay b).cursor = (s.bay b).cursor ∧ (t.bay b).weak = (s.bay b).weak ∧ (t.bay b).head = (s.bay b).head ∧
        cleared t) ∧
    ((s.bay b).presence = true →
      Runs (.bayPresenceFall b) s fun t =>
        (t.bay b).state = .empty ∧ (t.bay b).faultCause = some .pulled ∧ (t.bay b).presence = false ∧
        (t.bay b).capacity = none ∧ (t.bay b).cursor = 0 ∧ (t.bay b).weak = [] ∧ (t.bay b).head = 0 ∧ cleared t) ∧
    ∀ c, (c = .operationNoAnswer b ∧ (s.bay b).op.any isService = true ∧ (s.bay b).opLimit ≤ (s.bay b).opTimer) ∨
        (c = .bayPresenceFall b ∧ (s.bay b).presence = true) →
      (∀ i w k l, s.waits = [] → s.twin i = some w → w.retiring = false → w.state = .live ∨ w.state = .stale →
        (∀ j v, s.twin j = some v → j ≠ i → v.source ≠ b ∧ v.target ≠ b) →
        s.loan k = some l → l.state = .active → l.placedBay = b → l.move = none → l.notice ≠ some .loanEnded →
        (∀ r ∈ s.records, r.loan.slot ≠ k) →
        (∀ r, w.source = b → w.target ≠ b → (s.bay w.target).state = .ready → l.kind = .view → l.viaTwin = none →
          l.range = some r → w.first ≤ r.first → r.last ≤ w.last →
          Runs c s fun t => t.twin i = some { w with state := .orphan } ∧
            ∃ x, t.loan k = some x ∧ x.state = .active ∧ x.placedBay = w.target ∧ x.viaTwin = some i) ∧
        (w.target = b → w.source ≠ b → (s.bay w.source).state = .ready → l.viaTwin = some i →
          Runs c s fun t => (∀ v, t.twin i = some v → v.state ≠ .live) ∧
            ∃ x, t.loan k = some x ∧ x.state = .active ∧ x.placedBay = w.source ∧ x.viaTwin = none)) ∧
      ∀ ref r l, (s.bay b).service = some (.command ref) → (s.bay b).chosen = none →
        s.records.filter (fun x => x.ref == ref) = [r] → r.state = .inService → r.replied = false →
        s.loan r.loan.slot = some l → l.endReason ≠ some .linkLost → l.move = none →
        (∀ a, ∀ m ∈ (s.bay a).ring, ref ∉ m.queued) →
        let back := r.count - r.done
        let done : OutRecord := { tag := ref.tag, record := .done .bayFault r.done }
        let read : Command := { r with held := r.held - back, state := .delivering, outcome := some .bayFault }
        let cut : Command := { r with held := r.held - back, state := .delivering, outcome := none, carry := back }
        (r.kind ≠ .stream → (s.link ref.node).presence = true → 0 < (s.link ref.node).reserved →
          (r.kind = .write → Runs c s fun t => t.record ref = none ∧ t.HasPlaced ref.node done) ∧
          (r.kind = .read → (∀ w ∈ (s.link ref.node).waitingData, w.tag ≠ ref.tag) →
            Runs c s fun t => t.HasPlaced ref.node done ∧
              t.record ref = if back < r.held then some { read with replied := true } else none)) ∧
        (r.kind = .read → (∃ w ∈ (s.link ref.node).waitingData, w.tag = ref.tag) →
          Runs c s fun t => t.record ref = some read) ∧
        (r.kind = .stream →
          (Runs c s fun t => ∃ x, t.record ref = some x ∧ x = { cut with carry := x.carry, closing := x.closing }) ∧
          (l.state = .active → l.placedBay = b → (∀ j v, s.twin j = some v → v.source ≠ b ∧ v.target ≠ b) →
            Runs c s fun t => ∃ x, t.record ref = some x ∧ x.closing = some .bayFault) ∧
          (∀ i w q, l.state = .active → l.placedBay = b → s.waits = [] → s.recordsOf r.loan.slot = [ref] →
            l.notice ≠ some .loanEnded → s.twin i = some w → w.retiring = false → w.state = .live ∨ w.state = .stale →
            (∀ j v, s.twin j = some v → j ≠ i → v.source ≠ b ∧ v.target ≠ b) →
            w.source = b → w.target ≠ b → (s.bay w.target).state = .ready → l.kind = .view → l.viaTwin = none →
            l.range = some q → w.first ≤ q.first → q.last ≤ w.last →
            Runs c s fun t => t.record ref = some cut ∧
              ∃ x, t.loan r.loan.slot = some x ∧ x.state = .active ∧ x.placedBay = w.target ∧ x.viaTwin = some i))

/-- R127 to R129: while fewer than G bays are SPINNING, bays are admitted from the head of the spin queue; an admitted bay
enters SPINNING and SPIN UP is issued, timed by 3000 ticks with power-on spin yes and by the spin limit else. When every
queued bay is in SPIN_WAIT and stands there once, as many are admitted as G leaves room for, each raising the BAY notice
in turn (R121), and nothing else changes. With no bay to admit nothing happens (log entry 1). -/
def Obligations.SpinAdmitFills : Prop :=
  (∀ s : State, s.spinQueue = [] ∨ s.settings.spinGroup ≤ s.spinningCount → exec .spinAdmit s = .next s) ∧
  (∀ (s : State) (b : Nat) (rest : List Nat), s.spinQueue = b :: rest → b < s.bays.length → b ∉ rest →
    s.spinningCount < s.settings.spinGroup →
    Runs .spinAdmit s fun t =>
      t.bay b = { s.bay b with state := .spinning, powerOnSpin := false, op := some .spinUp
                               opNumber := (s.bay b).opNumber + 1, opTimer := 0
                               opLimit := if (s.bay b).powerOnSpin then 3000 else (s.profile b).spinLimit } ∧
      t.spinQueue <:+ rest ∧ (t.spinQueue = [] ∨ s.settings.spinGroup ≤ t.spinningCount)) ∧
  (∀ s : State, s.spinQueue.Nodup → (∀ b ∈ s.spinQueue, b < s.bays.length ∧ (s.bay b).state = .spinWait) →
    let room := s.settings.spinGroup - s.spinningCount
    let admitted := s.spinQueue.take room
    Runs .spinAdmit s fun t =>
      t = { s with bays := t.bays, spinQueue := s.spinQueue.drop room
                   notices := { s.notices with bay := admitted.foldl (fun n b =>
                     { n with pending := true, count := min 255 (n.count + 1), subject := b }) s.notices.bay } } ∧
      t.bays.length = s.bays.length ∧
      ∀ b, t.bay b = if b ∈ admitted then
          { s.bay b with state := .spinning, powerOnSpin := false, op := some .spinUp, opNumber := (s.bay b).opNumber + 1
                         opTimer := 0, opLimit := if (s.bay b).powerOnSpin then 3000 else (s.profile b).spinLimit }
        else s.bay b)

/-- R129, R130: SPIN UP answers ready and IDENTIFY is issued; IDENTIFY answers a capacity of 1 or more and the bay is
READY, its weak list and cursor trimmed, its arbiter empty and its upkeep timer started; a capacity of 0 faults it
BAD_IDENTIFY. R38: when the spin timer expires during SPIN UP, or IDENTIFY is not answered in time, the bay is FAULTED
with its cause, and no wait entry on it is left, each having been answered REFUSED NO_BAY (R37; from a quiet state). R33
to R36: the bay being READY, the grant scan grants the one wait entry, which waited for it and conflicts with nothing: it
leaves the list for the lowest free slot, and GRANTED is placed in its reservation. -/
def Obligations.SpinUpMakesReady : Prop :=
  (∀ (s : State) (b number : Nat), isBay b = true → (s.bay b).opNumber = number →
    ((s.bay b).op = some .spinUp →
      exec (.spinUpReady b number) s = .next (s.modBay b fun x =>
        { x with op := some .identify, opNumber := x.opNumber + 1, opTimer := 0
                 opLimit := (s.profile b).operationTimeout })) ∧
    (∀ capacity, (s.bay b).op = some .identify → 1 ≤ capacity → capacity ≤ 4294967295 →
      Runs (.identifyAnswer b number capacity) s fun t =>
        t.bay b = { s.bay b with
          state := .ready, capacity := some capacity, head := 0, faultCause := none, op := none, opTimer := 0
          opLimit := 0, weak := (s.bay b).weak.filter (fun n => n < capacity)
          cursor := if capacity ≤ (s.bay b).cursor then 0 else (s.bay b).cursor
          upkeepDue := false
          upkeepTimer := if (s.profile b).upkeepPeriod = 0 then none
            else some { seconds := 0, ticks := 0, period := (s.profile b).upkeepPeriod }
          ring := [], deferral := 0, chosen := none, chunkWrite := none } ∧
        t.notices = s.bayNotice b) ∧
    (∀ capacity e k, (s.bay b).op = some .identify → 1 ≤ capacity → capacity ≤ 4294967295 → s.Shaped →
      s.waits = [e] → e.bay = b → e.masked = false → isNode e.node = true →
      (∀ w, some w ∈ s.twins → w.source ≠ b ∧ w.target ≠ b) → (∀ r, e.range = some r → r.first < capacity) →
      s.conflictsTable b e.kind e.range = false → (∀ j, j < k → (s.loan j).isSome = true) → k < 96 → s.loan k = none →
      0 < (s.nodeEntry e.node).holdBase → (s.link e.node).presence = true → 0 < (s.link e.node).reserved →
      let limit := (s.nodeEntry e.node).holdBase
      let range := e.range.map fun r => { r with last := min r.last (capacity - 1) }
      let issue := ((s.slot k).issue + 1) % 256
      let loan : Loan :=
        { borrower := e.node, askedBay := b, placedBay := b, viaTwin := none, kind := e.kind, cls := e.cls, range := range
          state := .active, endReason := none, holdBase := limit, holdLimit := limit, idle := 0, commands := 0
          notice := none, returnTag := none, move := none }
      Runs (.identifyAnswer b number capacity) s fun t =>
        t.waits = [] ∧ t.twins = s.twins ∧ t.records = s.records ∧
        t.loans = (s.setSlot k { issue := issue, loan := some loan }).loans ∧
        t.links = (s.setLink e.node ((s.link e.node).replying
          { tag := e.tag, record := .granted { slot := k, issue := issue } b e.kind e.cls range limit })).links) ∧
    ((s.bay b).op = some .identify →
      Runs (.identifyAnswer b number 0) s fun t =>
        (t.bay b).state = .faulted ∧ (t.bay b).faultCause = some .badIdentify ∧ (t.bay b).capacity = none ∧
        (t.bay b).op = none ∧ t.noWaitOn b ∧ s.refusedOn b .noBay t ∧ t.notices = s.bayNotice b)) ∧
  (∀ (s : State) (b : Nat), isBay b = true → (s.bay b).opLimit ≤ (s.bay b).opTimer →
    ((s.bay b).op = some .spinUp →
      Runs (.spinUpTimeout b) s fun t =>
        (t.bay b).state = .faulted ∧ (t.bay b).faultCause = some .noSpin ∧ (t.bay b).capacity = (s.bay b).capacity ∧
        (t.bay b).op = none ∧ t.noWaitOn b ∧ s.refusedOn b .noBay t ∧ t.notices = s.bayNotice b) ∧
    ((s.bay b).op = some .identify →
      Runs (.identifyTimeout b) s fun t =>
        (t.bay b).state = .faulted ∧ (t.bay b).faultCause = some .badIdentify ∧ (t.bay b).capacity = none ∧
        (t.bay b).op = none ∧ t.noWaitOn b ∧ s.refusedOn b .noBay t ∧ t.notices = s.bayNotice b))

/-- R135: a press of the release button is ignored unless the profile permits it and the bay is in SPIN_WAIT, SPINNING or
READY. R136: it takes a bay in SPIN_WAIT to RELEASED and one in SPINNING to STOPPING, and no wait entry on it is left,
each having been answered REFUSED NO_BAY (R37, R38; from a quiet state). R137: it takes a READY bay to DRAINING, or on to
STOPPING (R138), with its wait entries answered REFUSED BAY_RELEASING; its twin record moves the loans it moves (R164,
R165), and every loan still placed on it holds a move. -/
def Obligations.ReleaseButtonReleases : Prop :=
  ∀ (s : State) (b : Nat), isBay b = true →
    ((s.profile b).releasePermitted = false ∨
      ((s.bay b).state ≠ .spinWait ∧ (s.bay b).state ≠ .spinning ∧ (s.bay b).state ≠ .ready) →
      exec (.releaseButtonPress b) s = .next s) ∧
    ((s.profile b).releasePermitted = true → (s.bay b).state = .spinWait →
      Runs (.releaseButtonPress b) s fun t =>
        (t.bay b).state = .released ∧ (t.bay b).faultCause = none ∧ (t.bay b).opNumber = (s.bay b).opNumber ∧
        b ∉ t.spinQueue ∧ t.noWaitOn b ∧ s.refusedOn b .noBay t ∧ t.notices = s.bayNotice b) ∧
    ((s.profile b).releasePermitted = true → (s.bay b).state = .spinning →
      Runs (.releaseButtonPress b) s fun t =>
        (t.bay b).state = .stopping ∧ (t.bay b).op = some .spinDown ∧
        (t.bay b).opLimit = (s.profile b).spinLimit ∧ (t.bay b).opTimer = 0 ∧ t.noWaitOn b ∧
        s.refusedOn b .noBay t ∧ t.notices = s.bayNotice b) ∧
    ((s.profile b).releasePermitted = true → s.Shaped → (s.bay b).state = .ready →
      Runs (.releaseButtonPress b) s fun t =>
        ((t.bay b).state = .draining ∨ (t.bay b).state = .stopping) ∧ t.noWaitOn b ∧ s.refusedOn b .bayReleasing t ∧
        s.drainMoves b t ∧ (∀ k l, t.loan k = some l → l.state = .active → l.placedBay = b → l.move ≠ none))

/-- R134, R137: RELEASE BAY of a READY bay, whatever the profile permits, is answered TAKEN DRAINING; after the drain
handling the bay is DRAINING, or STOPPING already (R138, log entry 11), no wait entry names it, each having been answered
REFUSED BAY_RELEASING (R37, R38; from a quiet state), its twin record moves the loans it moves (R164, R165), and every
loan still placed on it holds a move. R136: one in SPIN_WAIT is answered TAKEN RELEASED and is RELEASED, out of the spin
queue; one in SPINNING, TAKEN STOPPING, and is STOPPING with SPIN DOWN issued; no wait entry names either, each answered
REFUSED NO_BAY. A bay in EMPTY, DRAINING, STOPPING, RELEASED or FAULTED is refused BAY_STATE, and a bad body is rejected. -/
def Obligations.ReleaseBayDrains : Prop :=
  ∀ (s : State) (f : Frame), s.CanTake 0 kindReleaseBay 1 f → f.tag ≠ 0 →
    let b := field f.body 0 1
    (f.body.length < 1 → exec .releaseBay s = .next (s.answer 0 f (.reject .badLength .body 0 kindReleaseBay))) ∧
    (1 ≤ f.body.length → 24 ≤ b → exec .releaseBay s = .next (s.answer 0 f (.reject .badField .body 0 kindReleaseBay))) ∧
    (1 ≤ f.body.length → b < 24 →
      (s.bay b).state = .empty ∨ (s.bay b).state = .draining ∨ (s.bay b).state = .stopping ∨
        (s.bay b).state = .released ∨ (s.bay b).state = .faulted →
      exec .releaseBay s = .next (s.answer 0 f (.refusedBay b (s.bay b).state))) ∧
    (1 ≤ f.body.length → b < 24 → s.Shaped → (s.bay b).state = .spinWait →
      Runs .releaseBay s fun t =>
        t.HasPlaced 0 { tag := f.tag, record := .takenBay b .released } ∧
        (t.bay b).state = .released ∧ (t.bay b).faultCause = none ∧ (t.bay b).opNumber = (s.bay b).opNumber ∧
        b ∉ t.spinQueue ∧ t.noWaitOn b ∧ s.refusedOn b .noBay t ∧ t.notices = s.bayNotice b) ∧
    (1 ≤ f.body.length → b < 24 → s.Shaped → (s.bay b).state = .spinning →
      Runs .releaseBay s fun t =>
        t.HasPlaced 0 { tag := f.tag, record := .takenBay b .stopping } ∧
        (t.bay b).state = .stopping ∧ (t.bay b).op = some .spinDown ∧ (t.bay b).opLimit = (s.profile b).spinLimit ∧
        (t.bay b).opTimer = 0 ∧ t.noWaitOn b ∧ s.refusedOn b .noBay t ∧ t.notices = s.bayNotice b) ∧
    (1 ≤ f.body.length → b < 24 → s.Shaped → (s.bay b).state = .ready →
      Runs .releaseBay s fun t =>
        t.HasPlaced 0 { tag := f.tag, record := .takenBay b .draining } ∧
        ((t.bay b).state = .draining ∨ (t.bay b).state = .stopping) ∧ t.noWaitOn b ∧
        s.refusedOn b .bayReleasing t ∧ s.drainMoves b t ∧
        (∀ k l, t.loan k = some l → l.state = .active → l.placedBay = b → l.move ≠ none))

/-- R140: RESTORE BAY. A short body and a bay above 23 are rejected; a bay in RELEASED or FAULTED, or in EMPTY with its
presence line high, enters SPIN_WAIT at the tail of the spin queue, its fault cause cleared and its power-on spin no
(R147), and TAKEN carries SPIN_WAIT; one in EMPTY with the line low is refused NO_DISK; in any other state, BAY_STATE with
that state; that this record carries the bay number as well is the model's choice (log entry 46). Nothing else changes. -/
def Obligations.RestoreBayActsByState : Prop :=
  ∀ (s : State) (f : Frame), s.CanTake 0 kindRestoreBay 1 f → f.tag ≠ 0 →
    let b := field f.body 0 1
    (f.body.length < 1 → exec .restoreBay s = .next (s.answer 0 f (.reject .badLength .body 0 kindRestoreBay))) ∧
    (1 ≤ f.body.length → 24 ≤ b → exec .restoreBay s = .next (s.answer 0 f (.reject .badField .body 0 kindRestoreBay))) ∧
    (1 ≤ f.body.length → b < 24 →
      ((s.bay b).state = .released ∨ (s.bay b).state = .faulted ∨
          ((s.bay b).state = .empty ∧ (s.bay b).presence = true) →
        exec .restoreBay s = .next
          { (s.modBay b fun x => { x with state := .spinWait, faultCause := none, powerOnSpin := false }).answer 0 f
              (.takenBay b .spinWait) with
            spinQueue := s.spinQueue ++ [b], notices := s.bayNotice b }) ∧
      ((s.bay b).state = .empty → (s.bay b).presence = false →
        exec .restoreBay s = .next (s.answer 0 f (.refusedSup .noDisk))) ∧
      ((s.bay b).state = .spinWait ∨ (s.bay b).state = .spinning ∨ (s.bay b).state = .ready ∨
          (s.bay b).state = .draining ∨ (s.bay b).state = .stopping →
        exec .restoreBay s = .next (s.answer 0 f (.refusedBay b (s.bay b).state))))

/-- R138, R139, R118: a DRAINING bay with no loan placed on it, nothing in service and no chosen unit enters STOPPING, and
SPIN DOWN is issued; one with a loan placed on it does not (log entry 1). SPIN DOWN answers done, or its time limit is
reached, and the bay is RELEASED. -/
def Obligations.DrainStopsAndReleases : Prop :=
  (∀ (s : State) (b : Nat), isBay b = true → (s.bay b).state = .draining →
    ((∀ k l, s.loan k = some l → ¬(l.state = .active ∧ l.placedBay = b)) → (s.bay b).service = none →
      (s.bay b).chosen = none →
      exec (.drainComplete b) s = .next
        { s.modBay b (fun x =>
            { x with state := .stopping, upkeepDue := false, upkeepTimer := none, ring := [], deferral := 0
                     chunkWrite := none, op := some .spinDown, opNumber := x.opNumber + 1, opTimer := 0
                     opLimit := (s.profile b).spinLimit }) with
          notices := s.bayNotice b }) ∧
    ((∃ k l, s.loan k = some l ∧ l.state = .active ∧ l.placedBay = b) → exec (.drainComplete b) s = .next s)) ∧
  (∀ (s : State) (b : Nat), isBay b = true → (s.bay b).op = some .spinDown →
    let t : State := { s.modBay b (fun x => { x with state := .released, faultCause := none, op := none, opTimer := 0
                                                     opLimit := 0 }) with notices := s.bayNotice b }
    exec (.spinDownDone b (s.bay b).opNumber) s = .next t ∧
    ((s.bay b).opLimit ≤ (s.bay b).opTimer → exec (.spinDownTimeout b) s = .next t))

/-! ### Twins and copies (Chapter 8) -/

/-- R149, R151, R153, R154, R38: a COPY that passes its checks makes the record in the lowest free slot and the lowest
free channel busy, with the first chunk queued and the channel a BULK member of the source bay's ring with credit 0
(R116), is answered TAKEN, and leaves no wait entry on the target, each having been answered REFUSED TWIN_TARGET (R37;
from a quiet state). One that fails a check is refused with the first reason, and a held move whose via twin R160 has cleared
fails none (log entry 47, the model's choice). R152: a short body, a source above 23, a
target above 23 or equal to the source, and a first above last are rejected in that order. -/
def Obligations.CopyStartsOrRefused : Prop :=
  ∀ (s : State) (f : Frame) (source target first last : Nat), s.CanTake 0 kindCopy 1 f → f.tag ≠ 0 →
    (f.body.length < 10 → exec .copy s = .next (s.answer 0 f (.reject .badLength .body f.body.length kindCopy))) ∧
    (10 ≤ f.body.length → 24 ≤ field f.body 0 1 →
      exec .copy s = .next (s.answer 0 f (.reject .badField .body 0 kindCopy))) ∧
    (10 ≤ f.body.length → field f.body 0 1 < 24 →
      24 ≤ field f.body 1 1 ∨ field f.body 1 1 = field f.body 0 1 →
      exec .copy s = .next (s.answer 0 f (.reject .badField .body 1 kindCopy))) ∧
    (10 ≤ f.body.length → field f.body 0 1 < 24 → field f.body 1 1 < 24 → field f.body 1 1 ≠ field f.body 0 1 →
      field f.body 6 4 < field f.body 2 4 →
      exec .copy s = .next (s.answer 0 f (.reject .badField .body 2 kindCopy))) ∧
    (10 ≤ f.body.length → source = field f.body 0 1 → target = field f.body 1 1 → first = field f.body 2 4 →
      last = field f.body 6 4 → source < 24 → target < 24 → target ≠ source → first ≤ last →
      (∀ r, s.copyRefusal source target first last = some r → exec .copy s = .next (s.answer 0 f (.refusedSup r))) ∧
      (∀ c t, s.copyRefusal source target first last = none →
        (∀ j < c, (s.channel j).busy = true) → c < s.channels.length → (s.channel c).busy = false →
        (∀ j < t, (s.twin j).isSome = true) → t < s.twins.length → s.twin t = none →
        Runs .copy s fun u =>
          u.twin t = some { source := source, target := target, first := first, last := last, state := .copying
                            channel := some c, next := first, retiring := false } ∧
          u.channel c = { busy := true, twin := t, phase := .queued, chunkFirst := first
                          chunkCount := min 32 (last - first + 1), held := 0, endStatus := none, filled := [] } ∧
          u.HasPlaced 0 { tag := f.tag, record := .takenCopy t c source target first last } ∧
          { who := .channel c, cls := .bulk, credit := 0, visited := false, queued := [] } ∈ (u.bay source).ring ∧
          s.refusedOn target .twinTarget u ∧ u.noWaitOn target ∧ u.bays.length = s.bays.length))

/-- R158, R157: HALT COPY is answered TAKEN HALTING. A copy whose chunk is on a disk or waits for its buffers gets the end
status HALTED and its chunk runs on. One with no unit, or whose chunk is queued or pending, ends at once (log entry 22):
the chunk is withdrawn, its buffers return, the channel and the record are freed, and the COPY notice carries HALTED. A
record that is not COPYING is refused NOT_COPYING, a free slot NO_RECORD. COPY_END ends so a copy whose end is decided and
that has no unit left. (Ends are said with no wait entry. A free channel's twin, chunk first and chunk count of 0 are the
model's choice, log entry 24.) -/
def Obligations.HaltCopyAndCopyEnd : Prop :=
  (∀ (s : State) (f : Frame), s.CanTake 0 kindHaltCopy 1 f → f.tag ≠ 0 → 1 ≤ f.body.length →
    let t := field f.body 0 1
    (6 ≤ t → exec .haltCopy s = .next (s.answer 0 f (.reject .badField .body 0 kindHaltCopy))) ∧
    (t < 6 → s.twin t = none → exec .haltCopy s = .next (s.answer 0 f (.refusedSup .noRecord))) ∧
    (∀ w, t < 6 → s.twin t = some w → w.state ≠ .copying →
      exec .haltCopy s = .next (s.answer 0 f (.refusedSup .notCopying))) ∧
    (∀ w c, t < 6 → s.twin t = some w → w.state = .copying → w.channel = some c → c < s.channels.length →
      ((s.channel c).endStatus ≠ none → exec .haltCopy s = .next (s.answer 0 f (.takenTwin t .halting))) ∧
      ((s.channel c).endStatus = none → (s.channel c).phase = .chosen ∨ (s.channel c).phase = .reading ∨
          (s.channel c).phase = .writing →
        exec .haltCopy s = .next
          ((s.modChannel c fun x => { x with endStatus := some .halted }).answer 0 f (.takenTwin t .halting))) ∧
      ((s.channel c).endStatus = none → (s.channel c).twin = t → s.waits = [] →
        (s.channel c).phase = .none ∨ (s.channel c).phase = .queued ∨ (s.channel c).phase = .pending →
        let u : State :=
          if (s.channel c).phase = .queued then
            s.modBay w.source fun x => { x with ring := x.ring.filter (fun m => m.who != .channel c) }
          else if (s.channel c).phase = .pending then s.modBay w.target fun x => { x with chunkWrite := none }
          else s
        exec .haltCopy s = .next (State.answer { (u.setChannel c Channel.free).setTwin t none with
          poolFree := s.poolFree + (s.channel c).held
          notices := { s.notices with copy := { s.notices.copy with
            pending := true, count := min 255 (s.notices.copy.count + 1), subject := t, status := .halted } } } 0 f
          (.takenTwin t .halting))))) ∧
  (∀ (s : State) (c : Nat) (e : CopyEnd), s.Settled → isChannel c = true → (s.channel c).busy = true →
    (s.channel c).endStatus = some e → (s.channel c).phase = .none → s.waits = [] →
    exec (.copyEnd c) s = .next { (s.setChannel c Channel.free).setTwin (s.channel c).twin none with
      poolFree := s.poolFree + (s.channel c).held
      notices := { s.notices with copy := { s.notices.copy with
        pending := true, count := min 255 (s.notices.copy.count + 1), subject := (s.channel c).twin
        status := if e = .halted then .halted else .aborted } } })

/-- R158 to R160, R149: DROP TWIN. A twin number above 5 is BAD_FIELD at offset 0, a free slot NO_RECORD. A retiring record
is UNCHANGED. One COPYING is handled as by HALT COPY, and HALTING. A
LIVE or STALE record becomes retiring and STALE: each ACTIVE loan through it moves to the source, or holds that move while
a command of it waits for buffers or is in service, or ends TWIN_DROPPED with the source not READY; the record is freed
and DROPPED when no loan names it then, and RETIRING else. An ORPHAN is freed and DROPPED: the loans that name it are
ordinary loans on their placed bay, their limits recomputed (R55; none ending by it), and held moves toward it keep their
bay with via twin absent. (Said with no wait entry, so that the scan that follows grants nothing, and no LOAN ENDED
pending on an ACTIVE loan. A free channel's fields of 0 are the model's choice, log entry 24; that a copy with no unit
ends at once is log entry 22.) -/
def Obligations.DropTwinActsByState : Prop :=
  ∀ (s : State) (f : Frame) (w : Twin), s.CanTake 0 kindDropTwin 1 f → f.tag ≠ 0 → 1 ≤ f.body.length →
    let t := field f.body 0 1
    (6 ≤ t → exec .dropTwin s = .next (s.answer 0 f (.reject .badField .body 0 kindDropTwin))) ∧
    (t < 6 → s.twin t = none → exec .dropTwin s = .next (s.answer 0 f (.refusedSup .noRecord))) ∧
    (t < 6 → s.twin t = some w → w.retiring = true →
      exec .dropTwin s = .next (s.answer 0 f (.takenTwin t .unchanged))) ∧
    (∀ c, t < 6 → s.twin t = some w → w.retiring = false → w.state = .copying → w.channel = some c →
      c < s.channels.length →
      ((s.channel c).endStatus ≠ none → exec .dropTwin s = .next (s.answer 0 f (.takenTwin t .halting))) ∧
      ((s.channel c).endStatus = none → (s.channel c).phase = .chosen ∨ (s.channel c).phase = .reading ∨
          (s.channel c).phase = .writing →
        exec .dropTwin s = .next
          ((s.modChannel c fun x => { x with endStatus := some .halted }).answer 0 f (.takenTwin t .halting))) ∧
      ((s.channel c).endStatus = none → (s.channel c).twin = t → s.waits = [] →
        (s.channel c).phase = .none ∨ (s.channel c).phase = .queued ∨ (s.channel c).phase = .pending →
        let u : State :=
          if (s.channel c).phase = .queued then
            s.modBay w.source fun x => { x with ring := x.ring.filter (fun m => m.who != .channel c) }
          else if (s.channel c).phase = .pending then s.modBay w.target fun x => { x with chunkWrite := none }
          else s
        exec .dropTwin s = .next (State.answer { (u.setChannel c Channel.free).setTwin t none with
          poolFree := s.poolFree + (s.channel c).held
          notices := { s.notices with copy := { s.notices.copy with
            pending := true, count := min 255 (s.notices.copy.count + 1), subject := t, status := .halted } } } 0 f
          (.takenTwin t .halting)))) ∧
    (t < 6 → s.twin t = some w → w.retiring = false → w.state = .orphan → s.waits = [] → s.loans.length = Config.slots →
      let limit (l : Loan) : Nat := holdLimitOf l.holdBase (s.profile l.placedBay).holdMinimum 0
      (∀ k l, s.loan k = some l → l.viaTwin = some t → l.state = .active → l.idle < limit l) →
      let cleared (l : Loan) : Loan :=
        { l with viaTwin := if l.viaTwin = some t then none else l.viaTwin
                 holdLimit := if l.viaTwin = some t then limit l else l.holdLimit
                 move := l.move.map fun m => if m.via = some t then { m with via := none } else m }
      exec .dropTwin s = .next (State.answer { s.setTwin t none with
        loans := s.loans.map fun x => { x with loan := x.loan.map cleared } } 0 f (.takenTwin t .dropped))) ∧
    (t < 6 → s.twin t = some w → w.retiring = false → w.state = .live ∨ w.state = .stale → s.waits = [] →
      ((∀ k l, s.loan k = some l → l.viaTwin ≠ some t ∧ ∀ m, l.move = some m → m.via ≠ some t) →
        exec .dropTwin s = .next ((s.setTwin t none).answer 0 f (.takenTwin t .dropped))) ∧
      ((∃ k l, s.loan k = some l ∧ l.viaTwin = some t) →
        (∀ k l, s.loan k = some l → l.viaTwin = some t → l.state ≠ .active) →
        exec .dropTwin s = .next
          ((s.setTwin t (some { w with state := .stale, retiring := true })).answer 0 f (.takenTwin t .retiring))) ∧
      (s.Shaped → Runs .dropTwin s fun u =>
        (∀ v, u.twin t = some v → v = { w with state := .stale, retiring := true }) ∧
        (u.twin t = none ↔ u.loansVia t = 0) ∧
        u.HasPlaced 0 { tag := f.tag, record := .takenTwin t (if u.twin t = none then .dropped else .retiring) } ∧
        ∀ k l, s.loan k = some l → l.state = .active → l.viaTwin = some t → l.notice ≠ some .loanEnded →
          ((s.bay w.source).state = .ready → (∀ r ∈ s.records, r.loan.slot ≠ k) →
            ∃ x, u.loan k = some x ∧ x.state = .active ∧ x.placedBay = w.source ∧ x.viaTwin = none ∧ x.move = none) ∧
          ((s.bay w.source).state = .ready → s.workOnBay k = true →
            ∃ x, u.loan k = some x ∧ x.state = .active ∧ x.placedBay = l.placedBay ∧ x.viaTwin = some t ∧
              x.move = some { bay := w.source, via := none, reason := .twinDropped }) ∧
          ((s.bay w.source).state ≠ .ready →
            ∀ x, u.loan k = some x → x.state ≠ .active ∧ x.endReason = some .twinDropped)))

/-- R20, R21, R117, R166: a held move whose command has left the disk, toward a READY bay, of an ACTIVE loan through no
twin: the loan is placed on the new bay through the new twin, and LOAN MOVED is pending or, with room on its node's queue,
placed in the same step (log entry 27; no other notice of the node being pending, and with no wait entry). Its QUEUED
commands leave the old bay's ring and join the new bay's in their order, where the loan enters with credit 0 (R20, R117; no
count that the new bay's queue rises to being its hot threshold). For a move whose via twin R160 has cleared, that the hold
limit stands, and that no conflict on the new bay is tested, nor a copy that has taken it as target, is the model's choice
(log entries 34, 39 and 47). Only an ACTIVE loan ever holds a move: so it is after reset, and every step keeps it. -/
def Obligations.HeldMoveCarriedOut : Prop :=
  (∀ (s : State) (k : Nat) (l : Loan) (m : HeldMove), s.Settled → k < Config.slots → s.loan k = some l →
    l.state = .active → l.move = some m → s.workOnBay k = false → (s.bay m.bay).state = .ready → l.viaTwin = none → s.waits = [] →
    (∀ x ∈ (s.bay l.placedBay).ring, x.who ≠ .loan k) →
    (∀ j x, j < Config.slots → j ≠ k → s.loan j = some x → x.borrower = l.borrower → x.notice = none) →
    (¬ s.placeable l.borrower →
      exec (.heldMoveCarryOut k) s = .next
        (s.setLoan k { l with placedBay := m.bay, viaTwin := m.via, move := none, notice := some .loanMoved })) ∧
    (s.placeable l.borrower →
      exec (.heldMoveCarryOut k) s = .next
        ((s.setLoan k { l with placedBay := m.bay, viaTwin := m.via, move := none, notice := none }).setLink l.borrower
          ((s.link l.borrower).placing
            { tag := 0, record := .loanMoved { slot := k, issue := (s.slot k).issue } m.bay })))) ∧
  (∀ (s : State) (k : Nat) (l : Loan) (m : HeldMove) (x : Member), s.Settled → k < Config.slots → s.loan k = some l →
    l.state = .active → l.move = some m → s.workOnBay k = false → (s.bay m.bay).state = .ready → l.viaTwin = none → s.waits = [] →
    (s.bay l.placedBay).ring.filter (fun y => y.who == .loan k) = [x] → x.queued ≠ [] →
    (∀ ref ∈ x.queued, ∃ r, s.record ref = some r ∧ r.state = .queued) → l.placedBay ≠ m.bay →
    (∀ y ∈ (s.bay m.bay).ring, y.who ≠ .loan k) →
    (∀ i < x.queued.length,
      ((s.bay m.bay).ring.map fun y => y.queued.length).sum + i + 1 ≠ (s.profile m.bay).hotThreshold) →
    (∀ j x, j < Config.slots → j ≠ k → s.loan j = some x → x.borrower = l.borrower → x.notice = none) →
    let moved (l' : Loan) : State :=
      ((s.setLoan k l').modBay l.placedBay fun y => { y with ring := y.ring.filter fun z => z.who != .loan k }).modBay m.bay
        fun y => { y with ring := y.ring ++
          [{ who := .loan k, cls := l.cls, credit := 0, visited := false, queued := x.queued }] }
    (¬ s.placeable l.borrower →
      exec (.heldMoveCarryOut k) s = .next
        (moved { l with placedBay := m.bay, viaTwin := m.via, move := none, notice := some .loanMoved })) ∧
    (s.placeable l.borrower →
      exec (.heldMoveCarryOut k) s = .next
        ((moved { l with placedBay := m.bay, viaTwin := m.via, move := none, notice := none }).setLink l.borrower
          ((s.link l.borrower).placing
            { tag := 0, record := .loanMoved { slot := k, issue := (s.slot k).issue } m.bay })))) ∧
  State.reset.MovesActive ∧ (∀ s t : State, s.MovesActive → step s = .next t → t.MovesActive)

/-! ### Time (Chapters 3, 4, 7 and 10) -/

/-- R45, R69, R126, R141: a tick advances the idle clock of every ACTIVE loan without a command record, the gap timer of
every GATHERING write, the timer of every disk operation in progress, each up to its limit, and every running upkeep timer,
which counts a second at each hundredth tick from its start, up to its period (log entry 8). Nothing else changes but a
save's count of ticks, which is the model's (log entries 15 and 26). A running upkeep timer that has reached its period
stops, and upkeep is due. -/
def Obligations.TickCounts : Prop :=
  (∀ s : State, ∃ t, exec .tick s = .next t ∧
    t = { s with loans := t.loans, records := t.records, bays := t.bays, saving := t.saving } ∧
    t.saving = (s.saving.map fun v => { v with ticks := min 50 (v.ticks + 1) }) ∧
    (∀ k, (t.slot k).issue = (s.slot k).issue ∧ t.loan k = (s.loan k).map fun l =>
      { l with idle := if l.state = .active ∧ l.commands = 0 then max l.idle (min l.holdLimit (l.idle + 1)) else l.idle }) ∧
    t.records = (s.records.map fun r =>
      { r with gapTimer :=
          if r.state = .gathering then max r.gapTimer (min r.dataGap (r.gapTimer + 1)) else r.gapTimer }) ∧
    (∀ b, t.bay b = { s.bay b with
      opTimer := if (s.bay b).op = none then (s.bay b).opTimer
        else max (s.bay b).opTimer (min (s.bay b).opLimit ((s.bay b).opTimer + 1))
      upkeepTimer := (s.bay b).upkeepTimer.map fun u =>
        if u.period ≤ u.seconds then u
        else if u.ticks < 99 then { u with ticks := u.ticks + 1 }
        else { u with seconds := u.seconds + 1, ticks := 0 } })) ∧
  (∀ (s : State) (b : Nat) (u : UpkeepTimer), isBay b = true → (s.bay b).upkeepTimer = some u → u.period ≤ u.seconds →
    exec (.upkeepTimerExpiry b) s = .next (s.modBay b fun x => { x with upkeepTimer := none, upkeepDue := true }))

/-! ### Supervision (Chapter 10) -/

/-- R174: a supervisor frame with tag 0 is answered BAD_TAG, before every other check, and changes nothing; with another tag
and a body shorter than its layout, BAD_LENGTH (R180 to R183, R185, R56, R134, R140, R152, R158). -/
def Obligations.SupervisorFormChecked : Prop :=
  (∀ c kind, (c, kind) ∈ [(Instr.setBay, kindSetBay), (.setNode, kindSetNode), (.setShelf, kindSetShelf), (.copy, kindCopy),
      (.haltCopy, kindHaltCopy), (.dropTwin, kindDropTwin), (.releaseBay, kindReleaseBay), (.restoreBay, kindRestoreBay),
      (.reclaim, kindReclaim), (.report, kindReport), (.readCause, kindReadCause), (.arm, kindArm), (.save, kindSave)] →
    ∀ (s : State) (f : Frame), s.CanTake 0 kind 1 f → f.tag = 0 →
      exec c s = .next (s.answer 0 f (.reject .badTag .header 4 kind))) ∧
  (∀ c kind layout, (c, kind, layout) ∈ [(Instr.setBay, kindSetBay, 26), (.setNode, kindSetNode, 8),
      (.setShelf, kindSetShelf, 2), (.report, kindReport, 2), (.arm, kindArm, 6), (.haltCopy, kindHaltCopy, 1),
      (.dropTwin, kindDropTwin, 1)] →
    ∀ (s : State) (f : Frame), s.CanTake 0 kind 1 f → f.tag ≠ 0 → f.body.length < layout →
      exec c s = .next (s.answer 0 f (.reject .badLength .body f.body.length kind)))

/-- R180, R51, R53, R54, R181: SET BAY replaces the bay's profile with the values of its body, each clamped to its range,
and echoes them; a bay above 23, and a yes/no field of another code, are answered BAD_FIELD. A changed hold minimum
recomputes the hold limit of every loan whose source bay it is (those loans being active and short of the new limit, so
that none ends). SET NODE replaces the node's entry so, its loan limit raised to the node's loans and wait entries. -/
def Obligations.BayAndNodeSet : Prop :=
  (∀ (s : State) (f : Frame), s.CanTake 0 kindSetBay 1 f → f.tag ≠ 0 → 26 ≤ f.body.length →
    let b := field f.body 0 1
    let p : Profile :=
      { enabled := field f.body 1 1 == 1, releasePermitted := field f.body 2 1 == 1
        quantum := max 1 (min 64 (field f.body 3 1)), seekExponent := max 8 (min 24 (field f.body 4 1))
        seekCap := min 64 (field f.body 5 1), holdMinimum := max 5 (min 600 (field f.body 6 2))
        hotThreshold := min 64 (field f.body 8 1)
        spare := if field f.body 9 1 < 24 ∧ field f.body 9 1 ≠ b then some (field f.body 9 1) else none
        hotFirst := field f.body 10 4, hotLast := field f.body 14 4, upkeepPeriod := field f.body 18 2
        upkeepLength := max 8 (min 256 (field f.body 20 2)), operationTimeout := max 10 (min 3000 (field f.body 22 2))
        spinLimit := max 100 (min 6000 (field f.body 24 2)) }
    let t : State := { s with settings := { s.settings with profiles := s.settings.profiles.set b p } }
    (24 ≤ b → exec .setBay s = .next (s.answer 0 f (.reject .badField .body 0 kindSetBay))) ∧
    (b < 24 → 1 < field f.body 1 1 → exec .setBay s = .next (s.answer 0 f (.reject .badField .body 1 kindSetBay))) ∧
    (b < 24 → field f.body 1 1 ≤ 1 → 1 < field f.body 2 1 →
      exec .setBay s = .next (s.answer 0 f (.reject .badField .body 2 kindSetBay))) ∧
    (b < 24 → field f.body 1 1 ≤ 1 → field f.body 2 1 ≤ 1 →
      (p.holdMinimum = (s.profile b).holdMinimum → exec .setBay s = .next (t.answer 0 f (.takenSetBay b p))) ∧
      (p.holdMinimum ≠ (s.profile b).holdMinimum → s.loans.length = Config.slots →
        (∀ k l, s.loan k = some l → s.sourceBay l = b → l.state = .active → l.idle < t.holdLimit l) →
        exec .setBay s = .next (State.answer { t with loans := s.loans.map (fun x =>
          { x with loan := x.loan.map (fun l =>
              if s.sourceBay l = b then { l with holdLimit := t.holdLimit l } else l) }) } 0 f (.takenSetBay b p))))) ∧
  (∀ (s : State) (f : Frame), s.CanTake 0 kindSetNode 1 f → f.tag ≠ 0 → 8 ≤ f.body.length →
    let n := field f.body 0 1
    (n = 0 ∨ 16 < n → exec .setNode s = .next (s.answer 0 f (.reject .badField .body 0 kindSetNode))) ∧
    (1 ≤ n → n ≤ 16 → 1 < field f.body 1 1 →
      exec .setNode s = .next (s.answer 0 f (.reject .badField .body 1 kindSetNode))) ∧
    (1 ≤ n → n ≤ 16 → field f.body 1 1 ≤ 1 → field f.body 2 1 = 0 ∨ 3 < field f.body 2 1 →
      exec .setNode s = .next (s.answer 0 f (.reject .badField .body 2 kindSetNode))) ∧
    (∀ cap : Cls, 1 ≤ n → n ≤ 16 → field f.body 1 1 ≤ 1 → cap.code = field f.body 2 1 →
      let entry : NodeEntry :=
        { enabled := field f.body 1 1 == 1, classCap := cap
          loanLimit := max (max 1 (min 8 (field f.body 3 1))) (s.loanCount n + s.waitCount n)
          holdBase := max 10 (min 6000 (field f.body 4 2)), dataGap := max 5 (min 1000 (field f.body 6 2)) }
      exec .setNode s = .next ({ s with settings := { s.settings with
        nodeTable := s.settings.nodeTable.set (n - 1) entry } }.answer 0 f (.takenSetNode n entry))))

/-- R182, R43: SET SHELF with a level of no listed code is answered BAD_FIELD. With the level as it stands it sets the
spin group size, clamped to 1..8 and raised to the bays that are SPINNING. With another level, the masks of the wait
entries are set anew and every hold limit recomputed; when every entry is masked now, and no loan is at its new limit,
nothing else happens. -/
def Obligations.ShelfSet : Prop :=
  (∀ (s : State) (f : Frame), s.CanTake 0 kindSetShelf 1 f → f.tag ≠ 0 → 2 ≤ f.body.length →
    field f.body 0 1 = 0 ∨ 3 < field f.body 0 1 →
    exec .setShelf s = .next (s.answer 0 f (.reject .badField .body 0 kindSetShelf))) ∧
  ∀ (s : State) (f : Frame) (level : Level), s.CanTake 0 kindSetShelf 1 f → f.tag ≠ 0 → 2 ≤ f.body.length →
    level.code = field f.body 0 1 →
    let group := max (max 1 (min 8 (field f.body 1 1))) s.spinningCount
    let t : State :=
      { s with settings := { s.settings with level := level, spinGroup := group }
               waits := s.waits.map fun e => { e with masked := masks level e.cls } }
    (level = s.settings.level →
      exec .setShelf s = .next ({ s with settings := { s.settings with level := level, spinGroup := group } }.answer 0 f
        (.takenSetShelf level group))) ∧
    (level ≠ s.settings.level → s.loans.length = Config.slots → (∀ e ∈ s.waits, masks level e.cls = true) →
      (∀ k l, s.loan k = some l → l.state = .active → l.idle < t.holdLimit l) →
      exec .setShelf s = .next (State.answer { t with loans := s.loans.map (fun x =>
        { x with loan := x.loan.map (fun l => { l with holdLimit := t.holdLimit l }) }) } 0 f
          (.takenSetShelf level group))) ∧
    (level ≠ s.settings.level → Runs .setShelf s fun u =>
      u.settings = t.settings ∧ u.HasPlaced 0 { tag := f.tag, record := .takenSetShelf level group } ∧
      ∀ e ∈ u.waits, e ∈ t.waits)

/-- R183: REPORT is answered with the values as they stand, and changes nothing: what each selector's report holds. R146, R120:
BAY; its ring's members are listed from the pointer member on, which is the model's choice (log entry 13). R168: TWINS. A
selector or a number outside its range is answered BAD_FIELD. -/
def Obligations.ReportAnswered : Prop :=
  ∀ (s : State) (f : Frame), s.CanTake 0 kindReport 1 f → f.tag ≠ 0 → 2 ≤ f.body.length →
    let n := field f.body 1 1
    let answers (r : Report) : Prop := exec .report s = .next (s.answer 0 f (.report r))
    (field f.body 0 1 = 1 → n < 24 →
      let x := s.bay n
      ∃ place count,
        (x.state ≠ .spinWait → place = none) ∧
        (∀ i, x.state = .spinWait → s.spinQueue[i]? = some n → n ∉ s.spinQueue.take i → place = some (i + 1)) ∧
        (x.chosen = none → count = none) ∧
        (∀ ref r, x.chosen = some (.command ref) → s.record ref = some r → count = some r.count) ∧
        (∀ c, x.chosen = some (.chunkRead c) → count = some (s.channel c).chunkCount) ∧
        answers (.bay
          { bay := n, state := x.state, faultCause := x.faultCause, capacity := x.capacity, presence := x.presence
            spinPlace := place, cursor := x.cursor, upkeepDue := x.upkeepDue
            upkeepTimer := x.upkeepTimer.map UpkeepTimer.seconds, operation := x.op.map DiskOp.kind, weak := x.weak
            members := x.ring.map fun m => (m.who, (match m.who with
              | .loan k => (s.slot k).issue
              | .channel _ => 0), m.cls, m.credit)
            pointer := x.ring.head?.map Member.who, deferral := x.deferral
            queuedCount := (x.ring.map fun m => m.queued.length).sum, chosenCount := count
            chunkWrite := x.chunkWrite.isSome, head := x.head, profile := s.profile n })) ∧
    (field f.body 0 1 = 2 → n < 96 → answers (.loan
      { slot := n, issue := (s.slot n).issue
        loan := (s.loan n).map fun l =>
          { borrower := l.borrower, askedBay := l.askedBay, placedBay := l.placedBay, viaTwin := l.viaTwin, kind := l.kind
            cls := l.cls, range := l.range, state := l.state, endReason := l.endReason, holdBase := l.holdBase
            holdLimit := l.holdLimit, idle := l.idle, commands := l.commands, notice := l.notice
            returnTag := l.returnTag, moveTo := l.move.map HeldMove.bay, sourceBay := s.sourceBay l
            pressure := s.pressure l } })) ∧
    (field f.body 0 1 = 3 → 1 ≤ n → n ≤ 16 → ∃ wait,
      (∀ w ∈ s.poolWait, w.who = .link n → (∀ v ∈ s.poolWait, v.who = .link n → v.count = w.count) →
        wait = some w.count) ∧
      ((∀ w ∈ s.poolWait, w.who ≠ .link n) → wait = none) ∧
      answers (.node
        { node := n, entry := s.nodeEntry n, presence := (s.link n).presence, loans := s.loanCount n
          waits := s.waitCount n, records := s.recordCount n, placed := (s.link n).placed.length
          reserved := (s.link n).reserved, free := 64 - ((s.link n).placed.length + (s.link n).reserved)
          poolWait := wait, entries := s.waits.filter fun e => e.node == n })) ∧
    (field f.body 0 1 = 4 → answers (.pool
      { free := s.poolFree, byCommands := (s.records.map Command.held).sum
        byChannels := (s.channels.map Channel.held).sum, waiters := s.poolWait })) ∧
    (field f.body 0 1 = 5 → ∃ records : List (Nat × Twin × Nat),
      records.Pairwise (fun a b => a.1 < b.1) ∧
      (∀ i w c, (i, w, c) ∈ records ↔ i < 6 ∧ s.twin i = some w ∧ c = s.loansVia i) ∧
      answers (.twins { records := records, channels := s.channels.map fun c =>
        { busy := c.busy, twin := c.twin, phase := c.phase, chunkFirst := c.chunkFirst, chunkCount := c.chunkCount
          held := c.held, endStatus := c.endStatus } })) ∧
    (field f.body 0 1 = 6 → ∃ spinning : List Nat,
      (∀ b, b ∈ spinning ↔ b < 24 ∧ (s.bay b).state = .spinning) ∧
      answers (.shelf
        { level := s.settings.level, spinGroup := s.settings.spinGroup, spinning := spinning, spinQueue := s.spinQueue
          loans := s.loans.countP (fun k => k.loan.isSome), waits := s.waits.length, records := s.records.length
          arrival := s.arrival, saving := s.saving.isSome, notices := s.notices, cause := s.cause })) ∧
    (field f.body 0 1 = 0 ∨ 6 < field f.body 0 1 →
      exec .report s = .next (s.answer 0 f (.reject .badField .body 0 kindReport))) ∧
    ((field f.body 0 1 = 1 ∧ 24 ≤ n) ∨ (field f.body 0 1 = 2 ∧ 96 ≤ n) ∨ (field f.body 0 1 = 3 ∧ (n = 0 ∨ 16 < n)) →
      exec .report s = .next (s.answer 0 f (.reject .badField .body 1 kindReport)))

/-- R187: READ CAUSE places CAUSE with the four flags and clears them; the notices stand as they were. A reset taken after it
sets its own flag for the next read, and one taken before it is among the flags read. REPORT SHELF shows the flags without
clearing them. -/
def Obligations.ReadCauseClearsFlags : Prop :=
  (∀ (s : State) (f : Frame), s.CanTake 0 kindReadCause 1 f → f.tag ≠ 0 →
    exec .readCause s = .next { s.answer 0 f (.cause s.cause) with
      cause := { power := false, pin := false, shelf := false, defaults := false } }) ∧
  (∀ (s : State) (f : Frame), s.CanTake 0 kindReport 1 f → f.tag ≠ 0 → 2 ≤ f.body.length → field f.body 0 1 = 6 →
    Runs .report s fun t => t.cause = s.cause ∧
      ∃ r : ShelfReport, r.cause = s.cause ∧ t.HasPlaced 0 { tag := f.tag, record := .report (.shelf r) }) ∧
  (∀ s : State, Runs .pinReset s fun t => t.cause = { s.cause with pin := true })

/-- R185: ARM arms or disarms the kinds marked yes, in the order CAUSE, BAY, COPY, WORN, WEAK, leaves the others and answers
the five armed flags; of the six bytes, the first that is neither no nor yes is BAD_FIELD with its offset. With room on the
supervisor's queue the NOTICE of the eligible kind of lowest code is placed, and the kind is not pending, counts 0 and is
disarmed; without room, or with no eligible kind, nothing happens (log entry 1). -/
def Obligations.ArmAndNotices : Prop :=
  (∀ (s : State) (f : Frame), s.CanTake 0 kindArm 1 f → f.tag ≠ 0 →
    6 ≤ f.body.length →
    ((∀ i < 6, field f.body i 1 ≤ 1) →
      let after (i : Nat) (n : Notice) : Notice :=
        { n with armed := if field f.body i 1 = 1 then field f.body 0 1 == 1 else n.armed }
      let ns : Notices :=
        { cause := after 1 s.notices.cause, bay := after 2 s.notices.bay, copy := after 3 s.notices.copy
          worn := after 4 s.notices.worn, weak := after 5 s.notices.weak }
      exec .arm s = .next { s.answer 0 f (.takenArm ns.cause.armed ns.bay.armed ns.copy.armed ns.worn.armed
        ns.weak.armed) with notices := ns }) ∧
    (∀ i < 6, 1 < field f.body i 1 → (∀ j < i, field f.body j 1 ≤ 1) →
      exec .arm s = .next (s.answer 0 f (.reject .badField .body i kindArm)))) ∧
  (∀ s : State,
    (∀ k, s.hasRoom 0 = true → (s.notices.get k).pending = true → (s.notices.get k).armed = true →
      (∀ j : NoticeKind, j.code < k.code → (s.notices.get j).pending = false ∨ (s.notices.get j).armed = false) →
      let n := s.notices.get k
      exec .noticePlace s = .next { s.setLink 0 ((s.link 0).placing
          { tag := 0, record := .notice k n.count n.subject n.status }) with
        notices := s.notices.set k { n with pending := false, count := 0, armed := false } }) ∧
    (s.hasRoom 0 = false ∨ (∀ k, (s.notices.get k).pending = false ∨ (s.notices.get k).armed = false) →
      exec .noticePlace s = .next s))

/-- R186: SAVE takes the working settings and their check word as a snapshot, keeping its reservation; a SAVE during a save is
refused BUSY. At completion the store holds the snapshot's image, and SAVED with the check word is placed into the
reservation, or nothing when that was dropped. -/
def Obligations.SaveStores : Prop :=
  (∀ (s : State) (f : Frame), s.CanTake 0 kindSave 1 f → f.tag ≠ 0 →
    (s.saving = none → exec .save s = .next { s.setLink 0 (s.link 0).kept with
      saving := some { image := imageOf s.settings, tag := some f.tag, check := crc16 (settingsBytes s.settings)
                       ticks := 0 } }) ∧
    (s.saving ≠ none → exec .save s = .next (s.answer 0 f (.refusedSup .busy)))) ∧
  (∀ (s : State) (v : Save), s.saving = some v →
    (∀ tag, v.tag = some tag → (s.link 0).presence = true → 0 < (s.link 0).reserved →
      exec .saveComplete s = .next { s.setLink 0 ((s.link 0).replying { tag := tag, record := .saved v.check }) with
        store := v.image, saving := none }) ∧
    (v.tag = none → exec .saveComplete s = .next { s with store := v.image, saving := none }))

/-! ### Start-up and reset (Chapter 11) -/

/-- R186, R189, 10.4: a load of the image that a SAVE of the settings writes gives those settings, and its check passes: no
field is dropped or misplaced. -/
def Obligations.SettingsImageRoundTrips : Prop :=
  ∀ t : Settings, t.storable → (imageOf t).length = Config.imageBytes ∧ loadImage (imageOf t) = (t, false)

/-- R188 to R191, R147, R1: power-on clears everything but the store, loads it, and sends every seated bay that its loaded
profile enables to SPIN_WAIT, in bay order, each raising the BAY notice. The model's own choices in it: the operation
numbers that stay (log entry 10), the presence lines as they stand (30), the far ready lines as free values (7), and a
free channel's twin, chunk first and chunk count of 0 (24). -/
def Obligations.PowerOnStarts : Prop :=
  ∀ s : State, s.Shaped → Runs .powerOn s fun t => s.serviceCleared t ∧
    (∀ k, k < 96 → t.slot k = { issue := 0, loan := none }) ∧
    t.settings = (loadImage s.store).1 ∧
    t.cause = { power := true, pin := false, shelf := false, defaults := (loadImage s.store).2 } ∧
    (∀ b, b < 24 → t.bay b =
      if (s.bay b).presence = true ∧ (t.profile b).enabled = true then
        { Bay.initial with presence := true, opNumber := (s.bay b).opNumber, state := .spinWait, powerOnSpin := true }
      else { Bay.initial with presence := (s.bay b).presence, opNumber := (s.bay b).opNumber }) ∧
    t.spinQueue = ((List.range 24).filter fun b => (s.bay b).presence && (t.profile b).enabled) ∧
    t.notices.bay = raisedFor t.spinQueue

/-- R188 to R191, R148, R1: a pin reset and RESET SHELF clear the service state and keep the issues and the disks; a READY
bay's upkeep timer starts again; each bay that changes state raises the BAY notice; the settings are kept, or loaded at
RESET SHELF with reload yes; the cause flags record the reset. The model's own choices in it: the head that a bay in
SPINNING or SPIN_WAIT keeps, which the table of R148 does not list (log entry 31), the presence lines as they stand (30),
the far ready lines as free values (7), a free channel's twin, chunk first and chunk count of 0 (24), and the order in which
the bays change, which gives the BAY notice its subject (42). -/
def Obligations.WarmResetsKeepDisks : Prop :=
  ∀ s : State, s.Shaped →
    (Runs .pinReset s fun t => s.serviceCleared t ∧ s.disksKept t ∧ t.settings = s.settings ∧
      t.cause = { s.cause with pin := true }) ∧
    (∀ f : Frame, s.CanTake 0 kindResetShelf 0 f →
      (f.body.head? ≠ some 1 → Runs .resetShelf s fun t => s.serviceCleared t ∧ s.disksKept t ∧
        t.settings = s.settings ∧ t.cause = { s.cause with shelf := true }) ∧
      (f.body.head? = some 1 → Runs .resetShelf s fun t => s.serviceCleared t ∧ s.disksKept t ∧
        t.settings = (loadImage s.store).1 ∧
        t.cause = { s.cause with shelf := true, defaults := s.cause.defaults || (loadImage s.store).2 }))

/-! ### What every step keeps -/

/-- R79: the buffer balance, and that a free channel holds no buffer, are kept by every step. -/
def Obligations.PoolBalanceKept : Prop :=
  ∀ s t : State, s.PoolBalanced → step s = .next t → t.PoolBalanced

/-- R1, R26, R28, R33: the tables keep their sizes, the wait list its bound and its order, and no grant scan stays owed. R98,
R128, R144: the weak lists stay distinct and at most 16, the deferral counts at most 3, and the bays in SPINNING at most the
spin group size. R170, R172: the links' queues keep their bounds. -/
def Obligations.BoundsKept : Prop :=
  ∀ s t : State, s.Shaped → step s = .next t →
    t.Shaped ∧ (s.WaitsOrdered → t.WaitsOrdered) ∧ (s.Settled → t.Settled) ∧ (s.BaysBounded → t.BaysBounded) ∧
    (s.SpinBounded → t.SpinBounded) ∧ (s.LinksBounded → t.LinksBounded)

/-- After reset every invariant of this part holds; the pool has 384 free buffers (R79). The lines and the store of State.reset
are the model's choice (log entries 4 and 5). -/
def Obligations.ResetMeetsInvariants : Prop :=
  State.reset.Shaped ∧ State.reset.PoolBalanced ∧ State.reset.LinksBounded ∧ State.reset.BaysBounded ∧
  State.reset.SpinBounded ∧ State.reset.WaitsOrdered ∧ State.reset.Settled ∧ State.reset.poolFree = 384
end

