-- ==== Sys2Proof/Laws/State.lean ====
section
/-! SUPPORT. One lemma per field for each way of changing one part of the state, and reading a part after it is set. -/

namespace Sys2Proof.Machine

variable (s : State)

/-! ### setLink -/

@[simp] theorem State.setLink_links (l : Nat) (x : Link) : (s.setLink l x).links = s.links.set l x := rfl
@[simp] theorem State.setLink_loans (l : Nat) (x : Link) : (s.setLink l x).loans = s.loans := rfl
@[simp] theorem State.setLink_waits (l : Nat) (x : Link) : (s.setLink l x).waits = s.waits := rfl
@[simp] theorem State.setLink_arrival (l : Nat) (x : Link) : (s.setLink l x).arrival = s.arrival := rfl
@[simp] theorem State.setLink_records (l : Nat) (x : Link) : (s.setLink l x).records = s.records := rfl
@[simp] theorem State.setLink_poolFree (l : Nat) (x : Link) : (s.setLink l x).poolFree = s.poolFree := rfl
@[simp] theorem State.setLink_poolWait (l : Nat) (x : Link) : (s.setLink l x).poolWait = s.poolWait := rfl
@[simp] theorem State.setLink_bays (l : Nat) (x : Link) : (s.setLink l x).bays = s.bays := rfl
@[simp] theorem State.setLink_spinQueue (l : Nat) (x : Link) : (s.setLink l x).spinQueue = s.spinQueue := rfl
@[simp] theorem State.setLink_channels (l : Nat) (x : Link) : (s.setLink l x).channels = s.channels := rfl
@[simp] theorem State.setLink_twins (l : Nat) (x : Link) : (s.setLink l x).twins = s.twins := rfl
@[simp] theorem State.setLink_settings (l : Nat) (x : Link) : (s.setLink l x).settings = s.settings := rfl
@[simp] theorem State.setLink_notices (l : Nat) (x : Link) : (s.setLink l x).notices = s.notices := rfl
@[simp] theorem State.setLink_store (l : Nat) (x : Link) : (s.setLink l x).store = s.store := rfl
@[simp] theorem State.setLink_saving (l : Nat) (x : Link) : (s.setLink l x).saving = s.saving := rfl
@[simp] theorem State.setLink_cause (l : Nat) (x : Link) : (s.setLink l x).cause = s.cause := rfl
@[simp] theorem State.setLink_scanDue (l : Nat) (x : Link) : (s.setLink l x).scanDue = s.scanDue := rfl
@[simp] theorem State.setLink_pending (l : Nat) (x : Link) : (s.setLink l x).pending = s.pending := rfl

/-! ### setSlot -/

@[simp] theorem State.setSlot_links (k : Nat) (x : Slot) : (s.setSlot k x).links = s.links := rfl
@[simp] theorem State.setSlot_loans (k : Nat) (x : Slot) : (s.setSlot k x).loans = s.loans.set k x := rfl
@[simp] theorem State.setSlot_waits (k : Nat) (x : Slot) : (s.setSlot k x).waits = s.waits := rfl
@[simp] theorem State.setSlot_arrival (k : Nat) (x : Slot) : (s.setSlot k x).arrival = s.arrival := rfl
@[simp] theorem State.setSlot_records (k : Nat) (x : Slot) : (s.setSlot k x).records = s.records := rfl
@[simp] theorem State.setSlot_poolFree (k : Nat) (x : Slot) : (s.setSlot k x).poolFree = s.poolFree := rfl
@[simp] theorem State.setSlot_poolWait (k : Nat) (x : Slot) : (s.setSlot k x).poolWait = s.poolWait := rfl
@[simp] theorem State.setSlot_bays (k : Nat) (x : Slot) : (s.setSlot k x).bays = s.bays := rfl
@[simp] theorem State.setSlot_spinQueue (k : Nat) (x : Slot) : (s.setSlot k x).spinQueue = s.spinQueue := rfl
@[simp] theorem State.setSlot_channels (k : Nat) (x : Slot) : (s.setSlot k x).channels = s.channels := rfl
@[simp] theorem State.setSlot_twins (k : Nat) (x : Slot) : (s.setSlot k x).twins = s.twins := rfl
@[simp] theorem State.setSlot_settings (k : Nat) (x : Slot) : (s.setSlot k x).settings = s.settings := rfl
@[simp] theorem State.setSlot_notices (k : Nat) (x : Slot) : (s.setSlot k x).notices = s.notices := rfl
@[simp] theorem State.setSlot_store (k : Nat) (x : Slot) : (s.setSlot k x).store = s.store := rfl
@[simp] theorem State.setSlot_saving (k : Nat) (x : Slot) : (s.setSlot k x).saving = s.saving := rfl
@[simp] theorem State.setSlot_cause (k : Nat) (x : Slot) : (s.setSlot k x).cause = s.cause := rfl
@[simp] theorem State.setSlot_scanDue (k : Nat) (x : Slot) : (s.setSlot k x).scanDue = s.scanDue := rfl
@[simp] theorem State.setSlot_pending (k : Nat) (x : Slot) : (s.setSlot k x).pending = s.pending := rfl

/-! ### setBay -/

@[simp] theorem State.setBay_links (b : Nat) (x : Bay) : (s.setBay b x).links = s.links := rfl
@[simp] theorem State.setBay_loans (b : Nat) (x : Bay) : (s.setBay b x).loans = s.loans := rfl
@[simp] theorem State.setBay_waits (b : Nat) (x : Bay) : (s.setBay b x).waits = s.waits := rfl
@[simp] theorem State.setBay_arrival (b : Nat) (x : Bay) : (s.setBay b x).arrival = s.arrival := rfl
@[simp] theorem State.setBay_records (b : Nat) (x : Bay) : (s.setBay b x).records = s.records := rfl
@[simp] theorem State.setBay_poolFree (b : Nat) (x : Bay) : (s.setBay b x).poolFree = s.poolFree := rfl
@[simp] theorem State.setBay_poolWait (b : Nat) (x : Bay) : (s.setBay b x).poolWait = s.poolWait := rfl
@[simp] theorem State.setBay_bays (b : Nat) (x : Bay) : (s.setBay b x).bays = s.bays.set b x := rfl
@[simp] theorem State.setBay_spinQueue (b : Nat) (x : Bay) : (s.setBay b x).spinQueue = s.spinQueue := rfl
@[simp] theorem State.setBay_channels (b : Nat) (x : Bay) : (s.setBay b x).channels = s.channels := rfl
@[simp] theorem State.setBay_twins (b : Nat) (x : Bay) : (s.setBay b x).twins = s.twins := rfl
@[simp] theorem State.setBay_settings (b : Nat) (x : Bay) : (s.setBay b x).settings = s.settings := rfl
@[simp] theorem State.setBay_notices (b : Nat) (x : Bay) : (s.setBay b x).notices = s.notices := rfl
@[simp] theorem State.setBay_store (b : Nat) (x : Bay) : (s.setBay b x).store = s.store := rfl
@[simp] theorem State.setBay_saving (b : Nat) (x : Bay) : (s.setBay b x).saving = s.saving := rfl
@[simp] theorem State.setBay_cause (b : Nat) (x : Bay) : (s.setBay b x).cause = s.cause := rfl
@[simp] theorem State.setBay_scanDue (b : Nat) (x : Bay) : (s.setBay b x).scanDue = s.scanDue := rfl
@[simp] theorem State.setBay_pending (b : Nat) (x : Bay) : (s.setBay b x).pending = s.pending := rfl

/-! ### setChannel -/

@[simp] theorem State.setChannel_links (c : Nat) (x : Channel) : (s.setChannel c x).links = s.links := rfl
@[simp] theorem State.setChannel_loans (c : Nat) (x : Channel) : (s.setChannel c x).loans = s.loans := rfl
@[simp] theorem State.setChannel_waits (c : Nat) (x : Channel) : (s.setChannel c x).waits = s.waits := rfl
@[simp] theorem State.setChannel_arrival (c : Nat) (x : Channel) : (s.setChannel c x).arrival = s.arrival := rfl
@[simp] theorem State.setChannel_records (c : Nat) (x : Channel) : (s.setChannel c x).records = s.records := rfl
@[simp] theorem State.setChannel_poolFree (c : Nat) (x : Channel) : (s.setChannel c x).poolFree = s.poolFree := rfl
@[simp] theorem State.setChannel_poolWait (c : Nat) (x : Channel) : (s.setChannel c x).poolWait = s.poolWait := rfl
@[simp] theorem State.setChannel_bays (c : Nat) (x : Channel) : (s.setChannel c x).bays = s.bays := rfl
@[simp] theorem State.setChannel_spinQueue (c : Nat) (x : Channel) : (s.setChannel c x).spinQueue = s.spinQueue := rfl
@[simp] theorem State.setChannel_channels (c : Nat) (x : Channel) : (s.setChannel c x).channels = s.channels.set c x := rfl
@[simp] theorem State.setChannel_twins (c : Nat) (x : Channel) : (s.setChannel c x).twins = s.twins := rfl
@[simp] theorem State.setChannel_settings (c : Nat) (x : Channel) : (s.setChannel c x).settings = s.settings := rfl
@[simp] theorem State.setChannel_notices (c : Nat) (x : Channel) : (s.setChannel c x).notices = s.notices := rfl
@[simp] theorem State.setChannel_store (c : Nat) (x : Channel) : (s.setChannel c x).store = s.store := rfl
@[simp] theorem State.setChannel_saving (c : Nat) (x : Channel) : (s.setChannel c x).saving = s.saving := rfl
@[simp] theorem State.setChannel_cause (c : Nat) (x : Channel) : (s.setChannel c x).cause = s.cause := rfl
@[simp] theorem State.setChannel_scanDue (c : Nat) (x : Channel) : (s.setChannel c x).scanDue = s.scanDue := rfl
@[simp] theorem State.setChannel_pending (c : Nat) (x : Channel) : (s.setChannel c x).pending = s.pending := rfl

/-! ### setTwin -/

@[simp] theorem State.setTwin_links (t : Nat) (x : Option Twin) : (s.setTwin t x).links = s.links := rfl
@[simp] theorem State.setTwin_loans (t : Nat) (x : Option Twin) : (s.setTwin t x).loans = s.loans := rfl
@[simp] theorem State.setTwin_waits (t : Nat) (x : Option Twin) : (s.setTwin t x).waits = s.waits := rfl
@[simp] theorem State.setTwin_arrival (t : Nat) (x : Option Twin) : (s.setTwin t x).arrival = s.arrival := rfl
@[simp] theorem State.setTwin_records (t : Nat) (x : Option Twin) : (s.setTwin t x).records = s.records := rfl
@[simp] theorem State.setTwin_poolFree (t : Nat) (x : Option Twin) : (s.setTwin t x).poolFree = s.poolFree := rfl
@[simp] theorem State.setTwin_poolWait (t : Nat) (x : Option Twin) : (s.setTwin t x).poolWait = s.poolWait := rfl
@[simp] theorem State.setTwin_bays (t : Nat) (x : Option Twin) : (s.setTwin t x).bays = s.bays := rfl
@[simp] theorem State.setTwin_spinQueue (t : Nat) (x : Option Twin) : (s.setTwin t x).spinQueue = s.spinQueue := rfl
@[simp] theorem State.setTwin_channels (t : Nat) (x : Option Twin) : (s.setTwin t x).channels = s.channels := rfl
@[simp] theorem State.setTwin_twins (t : Nat) (x : Option Twin) : (s.setTwin t x).twins = s.twins.set t x := rfl
@[simp] theorem State.setTwin_settings (t : Nat) (x : Option Twin) : (s.setTwin t x).settings = s.settings := rfl
@[simp] theorem State.setTwin_notices (t : Nat) (x : Option Twin) : (s.setTwin t x).notices = s.notices := rfl
@[simp] theorem State.setTwin_store (t : Nat) (x : Option Twin) : (s.setTwin t x).store = s.store := rfl
@[simp] theorem State.setTwin_saving (t : Nat) (x : Option Twin) : (s.setTwin t x).saving = s.saving := rfl
@[simp] theorem State.setTwin_cause (t : Nat) (x : Option Twin) : (s.setTwin t x).cause = s.cause := rfl
@[simp] theorem State.setTwin_scanDue (t : Nat) (x : Option Twin) : (s.setTwin t x).scanDue = s.scanDue := rfl
@[simp] theorem State.setTwin_pending (t : Nat) (x : Option Twin) : (s.setTwin t x).pending = s.pending := rfl

/-! ### setLoan -/

@[simp] theorem State.setLoan_links (k : Nat) (l : Loan) : (s.setLoan k l).links = s.links := rfl
@[simp] theorem State.setLoan_loans (k : Nat) (l : Loan) : (s.setLoan k l).loans = s.loans.set k { s.slot k with loan := some l } := rfl
@[simp] theorem State.setLoan_waits (k : Nat) (l : Loan) : (s.setLoan k l).waits = s.waits := rfl
@[simp] theorem State.setLoan_arrival (k : Nat) (l : Loan) : (s.setLoan k l).arrival = s.arrival := rfl
@[simp] theorem State.setLoan_records (k : Nat) (l : Loan) : (s.setLoan k l).records = s.records := rfl
@[simp] theorem State.setLoan_poolFree (k : Nat) (l : Loan) : (s.setLoan k l).poolFree = s.poolFree := rfl
@[simp] theorem State.setLoan_poolWait (k : Nat) (l : Loan) : (s.setLoan k l).poolWait = s.poolWait := rfl
@[simp] theorem State.setLoan_bays (k : Nat) (l : Loan) : (s.setLoan k l).bays = s.bays := rfl
@[simp] theorem State.setLoan_spinQueue (k : Nat) (l : Loan) : (s.setLoan k l).spinQueue = s.spinQueue := rfl
@[simp] theorem State.setLoan_channels (k : Nat) (l : Loan) : (s.setLoan k l).channels = s.channels := rfl
@[simp] theorem State.setLoan_twins (k : Nat) (l : Loan) : (s.setLoan k l).twins = s.twins := rfl
@[simp] theorem State.setLoan_settings (k : Nat) (l : Loan) : (s.setLoan k l).settings = s.settings := rfl
@[simp] theorem State.setLoan_notices (k : Nat) (l : Loan) : (s.setLoan k l).notices = s.notices := rfl
@[simp] theorem State.setLoan_store (k : Nat) (l : Loan) : (s.setLoan k l).store = s.store := rfl
@[simp] theorem State.setLoan_saving (k : Nat) (l : Loan) : (s.setLoan k l).saving = s.saving := rfl
@[simp] theorem State.setLoan_cause (k : Nat) (l : Loan) : (s.setLoan k l).cause = s.cause := rfl
@[simp] theorem State.setLoan_scanDue (k : Nat) (l : Loan) : (s.setLoan k l).scanDue = s.scanDue := rfl
@[simp] theorem State.setLoan_pending (k : Nat) (l : Loan) : (s.setLoan k l).pending = s.pending := rfl

/-! ### modLink -/

@[simp] theorem State.modLink_links (l : Nat) (f : Link → Link) : (s.modLink l f).links = s.links.set l (f (s.link l)) := rfl
@[simp] theorem State.modLink_loans (l : Nat) (f : Link → Link) : (s.modLink l f).loans = s.loans := rfl
@[simp] theorem State.modLink_waits (l : Nat) (f : Link → Link) : (s.modLink l f).waits = s.waits := rfl
@[simp] theorem State.modLink_arrival (l : Nat) (f : Link → Link) : (s.modLink l f).arrival = s.arrival := rfl
@[simp] theorem State.modLink_records (l : Nat) (f : Link → Link) : (s.modLink l f).records = s.records := rfl
@[simp] theorem State.modLink_poolFree (l : Nat) (f : Link → Link) : (s.modLink l f).poolFree = s.poolFree := rfl
@[simp] theorem State.modLink_poolWait (l : Nat) (f : Link → Link) : (s.modLink l f).poolWait = s.poolWait := rfl
@[simp] theorem State.modLink_bays (l : Nat) (f : Link → Link) : (s.modLink l f).bays = s.bays := rfl
@[simp] theorem State.modLink_spinQueue (l : Nat) (f : Link → Link) : (s.modLink l f).spinQueue = s.spinQueue := rfl
@[simp] theorem State.modLink_channels (l : Nat) (f : Link → Link) : (s.modLink l f).channels = s.channels := rfl
@[simp] theorem State.modLink_twins (l : Nat) (f : Link → Link) : (s.modLink l f).twins = s.twins := rfl
@[simp] theorem State.modLink_settings (l : Nat) (f : Link → Link) : (s.modLink l f).settings = s.settings := rfl
@[simp] theorem State.modLink_notices (l : Nat) (f : Link → Link) : (s.modLink l f).notices = s.notices := rfl
@[simp] theorem State.modLink_store (l : Nat) (f : Link → Link) : (s.modLink l f).store = s.store := rfl
@[simp] theorem State.modLink_saving (l : Nat) (f : Link → Link) : (s.modLink l f).saving = s.saving := rfl
@[simp] theorem State.modLink_cause (l : Nat) (f : Link → Link) : (s.modLink l f).cause = s.cause := rfl
@[simp] theorem State.modLink_scanDue (l : Nat) (f : Link → Link) : (s.modLink l f).scanDue = s.scanDue := rfl
@[simp] theorem State.modLink_pending (l : Nat) (f : Link → Link) : (s.modLink l f).pending = s.pending := rfl

/-! ### modBay -/

@[simp] theorem State.modBay_links (b : Nat) (f : Bay → Bay) : (s.modBay b f).links = s.links := rfl
@[simp] theorem State.modBay_loans (b : Nat) (f : Bay → Bay) : (s.modBay b f).loans = s.loans := rfl
@[simp] theorem State.modBay_waits (b : Nat) (f : Bay → Bay) : (s.modBay b f).waits = s.waits := rfl
@[simp] theorem State.modBay_arrival (b : Nat) (f : Bay → Bay) : (s.modBay b f).arrival = s.arrival := rfl
@[simp] theorem State.modBay_records (b : Nat) (f : Bay → Bay) : (s.modBay b f).records = s.records := rfl
@[simp] theorem State.modBay_poolFree (b : Nat) (f : Bay → Bay) : (s.modBay b f).poolFree = s.poolFree := rfl
@[simp] theorem State.modBay_poolWait (b : Nat) (f : Bay → Bay) : (s.modBay b f).poolWait = s.poolWait := rfl
@[simp] theorem State.modBay_bays (b : Nat) (f : Bay → Bay) : (s.modBay b f).bays = s.bays.set b (f (s.bay b)) := rfl
@[simp] theorem State.modBay_spinQueue (b : Nat) (f : Bay → Bay) : (s.modBay b f).spinQueue = s.spinQueue := rfl
@[simp] theorem State.modBay_channels (b : Nat) (f : Bay → Bay) : (s.modBay b f).channels = s.channels := rfl
@[simp] theorem State.modBay_twins (b : Nat) (f : Bay → Bay) : (s.modBay b f).twins = s.twins := rfl
@[simp] theorem State.modBay_settings (b : Nat) (f : Bay → Bay) : (s.modBay b f).settings = s.settings := rfl
@[simp] theorem State.modBay_notices (b : Nat) (f : Bay → Bay) : (s.modBay b f).notices = s.notices := rfl
@[simp] theorem State.modBay_store (b : Nat) (f : Bay → Bay) : (s.modBay b f).store = s.store := rfl
@[simp] theorem State.modBay_saving (b : Nat) (f : Bay → Bay) : (s.modBay b f).saving = s.saving := rfl
@[simp] theorem State.modBay_cause (b : Nat) (f : Bay → Bay) : (s.modBay b f).cause = s.cause := rfl
@[simp] theorem State.modBay_scanDue (b : Nat) (f : Bay → Bay) : (s.modBay b f).scanDue = s.scanDue := rfl
@[simp] theorem State.modBay_pending (b : Nat) (f : Bay → Bay) : (s.modBay b f).pending = s.pending := rfl

/-! ### modChannel -/

@[simp] theorem State.modChannel_links (c : Nat) (f : Channel → Channel) : (s.modChannel c f).links = s.links := rfl
@[simp] theorem State.modChannel_loans (c : Nat) (f : Channel → Channel) : (s.modChannel c f).loans = s.loans := rfl
@[simp] theorem State.modChannel_waits (c : Nat) (f : Channel → Channel) : (s.modChannel c f).waits = s.waits := rfl
@[simp] theorem State.modChannel_arrival (c : Nat) (f : Channel → Channel) : (s.modChannel c f).arrival = s.arrival := rfl
@[simp] theorem State.modChannel_records (c : Nat) (f : Channel → Channel) : (s.modChannel c f).records = s.records := rfl
@[simp] theorem State.modChannel_poolFree (c : Nat) (f : Channel → Channel) : (s.modChannel c f).poolFree = s.poolFree := rfl
@[simp] theorem State.modChannel_poolWait (c : Nat) (f : Channel → Channel) : (s.modChannel c f).poolWait = s.poolWait := rfl
@[simp] theorem State.modChannel_bays (c : Nat) (f : Channel → Channel) : (s.modChannel c f).bays = s.bays := rfl
@[simp] theorem State.modChannel_spinQueue (c : Nat) (f : Channel → Channel) : (s.modChannel c f).spinQueue = s.spinQueue := rfl
@[simp] theorem State.modChannel_channels (c : Nat) (f : Channel → Channel) : (s.modChannel c f).channels = s.channels.set c (f (s.channel c)) := rfl
@[simp] theorem State.modChannel_twins (c : Nat) (f : Channel → Channel) : (s.modChannel c f).twins = s.twins := rfl
@[simp] theorem State.modChannel_settings (c : Nat) (f : Channel → Channel) : (s.modChannel c f).settings = s.settings := rfl
@[simp] theorem State.modChannel_notices (c : Nat) (f : Channel → Channel) : (s.modChannel c f).notices = s.notices := rfl
@[simp] theorem State.modChannel_store (c : Nat) (f : Channel → Channel) : (s.modChannel c f).store = s.store := rfl
@[simp] theorem State.modChannel_saving (c : Nat) (f : Channel → Channel) : (s.modChannel c f).saving = s.saving := rfl
@[simp] theorem State.modChannel_cause (c : Nat) (f : Channel → Channel) : (s.modChannel c f).cause = s.cause := rfl
@[simp] theorem State.modChannel_scanDue (c : Nat) (f : Channel → Channel) : (s.modChannel c f).scanDue = s.scanDue := rfl
@[simp] theorem State.modChannel_pending (c : Nat) (f : Channel → Channel) : (s.modChannel c f).pending = s.pending := rfl

/-! ### modRecord -/

@[simp] theorem State.modRecord_links (ref : CommandRef) (f : Command → Command) : (s.modRecord ref f).links = s.links := rfl
@[simp] theorem State.modRecord_loans (ref : CommandRef) (f : Command → Command) : (s.modRecord ref f).loans = s.loans := rfl
@[simp] theorem State.modRecord_waits (ref : CommandRef) (f : Command → Command) : (s.modRecord ref f).waits = s.waits := rfl
@[simp] theorem State.modRecord_arrival (ref : CommandRef) (f : Command → Command) : (s.modRecord ref f).arrival = s.arrival := rfl
@[simp] theorem State.modRecord_records (ref : CommandRef) (f : Command → Command) : (s.modRecord ref f).records = modifyFirst (fun r => r.ref == ref) f s.records := rfl
@[simp] theorem State.modRecord_poolFree (ref : CommandRef) (f : Command → Command) : (s.modRecord ref f).poolFree = s.poolFree := rfl
@[simp] theorem State.modRecord_poolWait (ref : CommandRef) (f : Command → Command) : (s.modRecord ref f).poolWait = s.poolWait := rfl
@[simp] theorem State.modRecord_bays (ref : CommandRef) (f : Command → Command) : (s.modRecord ref f).bays = s.bays := rfl
@[simp] theorem State.modRecord_spinQueue (ref : CommandRef) (f : Command → Command) : (s.modRecord ref f).spinQueue = s.spinQueue := rfl
@[simp] theorem State.modRecord_channels (ref : CommandRef) (f : Command → Command) : (s.modRecord ref f).channels = s.channels := rfl
@[simp] theorem State.modRecord_twins (ref : CommandRef) (f : Command → Command) : (s.modRecord ref f).twins = s.twins := rfl
@[simp] theorem State.modRecord_settings (ref : CommandRef) (f : Command → Command) : (s.modRecord ref f).settings = s.settings := rfl
@[simp] theorem State.modRecord_notices (ref : CommandRef) (f : Command → Command) : (s.modRecord ref f).notices = s.notices := rfl
@[simp] theorem State.modRecord_store (ref : CommandRef) (f : Command → Command) : (s.modRecord ref f).store = s.store := rfl
@[simp] theorem State.modRecord_saving (ref : CommandRef) (f : Command → Command) : (s.modRecord ref f).saving = s.saving := rfl
@[simp] theorem State.modRecord_cause (ref : CommandRef) (f : Command → Command) : (s.modRecord ref f).cause = s.cause := rfl
@[simp] theorem State.modRecord_scanDue (ref : CommandRef) (f : Command → Command) : (s.modRecord ref f).scanDue = s.scanDue := rfl
@[simp] theorem State.modRecord_pending (ref : CommandRef) (f : Command → Command) : (s.modRecord ref f).pending = s.pending := rfl

/-! ### oweScan -/

@[simp] theorem State.oweScan_links : (s.oweScan).links = s.links := rfl
@[simp] theorem State.oweScan_loans : (s.oweScan).loans = s.loans := rfl
@[simp] theorem State.oweScan_waits : (s.oweScan).waits = s.waits := rfl
@[simp] theorem State.oweScan_arrival : (s.oweScan).arrival = s.arrival := rfl
@[simp] theorem State.oweScan_records : (s.oweScan).records = s.records := rfl
@[simp] theorem State.oweScan_poolFree : (s.oweScan).poolFree = s.poolFree := rfl
@[simp] theorem State.oweScan_poolWait : (s.oweScan).poolWait = s.poolWait := rfl
@[simp] theorem State.oweScan_bays : (s.oweScan).bays = s.bays := rfl
@[simp] theorem State.oweScan_spinQueue : (s.oweScan).spinQueue = s.spinQueue := rfl
@[simp] theorem State.oweScan_channels : (s.oweScan).channels = s.channels := rfl
@[simp] theorem State.oweScan_twins : (s.oweScan).twins = s.twins := rfl
@[simp] theorem State.oweScan_settings : (s.oweScan).settings = s.settings := rfl
@[simp] theorem State.oweScan_notices : (s.oweScan).notices = s.notices := rfl
@[simp] theorem State.oweScan_store : (s.oweScan).store = s.store := rfl
@[simp] theorem State.oweScan_saving : (s.oweScan).saving = s.saving := rfl
@[simp] theorem State.oweScan_cause : (s.oweScan).cause = s.cause := rfl
@[simp] theorem State.oweScan_scanDue : (s.oweScan).scanDue = true := rfl
@[simp] theorem State.oweScan_pending : (s.oweScan).pending = s.pending := rfl

/-! ### Reading a part after it is set -/

theorem getD_set_self {α : Type} (as : List α) (i : Nat) (a d : α) (h : i < as.length) : (as.set i a).getD i d = a := by
  simp [List.getD_eq_getElem?_getD, h]

theorem getD_set_ne {α : Type} (as : List α) (i j : Nat) (a d : α) (h : i ≠ j) : (as.set i a).getD j d = as.getD j d := by
  simp [List.getD_eq_getElem?_getD, List.getElem?_set_ne h]

theorem State.link_setLink_self (l : Nat) (x : Link) (h : l < s.links.length) : (s.setLink l x).link l = x :=
  getD_set_self _ _ _ _ h
theorem State.link_setLink_ne (l m : Nat) (x : Link) (h : l ≠ m) : (s.setLink l x).link m = s.link m :=
  getD_set_ne _ _ _ _ _ h
theorem State.slot_setSlot_self (k : Nat) (x : Slot) (h : k < s.loans.length) : (s.setSlot k x).slot k = x :=
  getD_set_self _ _ _ _ h
theorem State.slot_setSlot_ne (k m : Nat) (x : Slot) (h : k ≠ m) : (s.setSlot k x).slot m = s.slot m :=
  getD_set_ne _ _ _ _ _ h
theorem State.bay_setBay_self (b : Nat) (x : Bay) (h : b < s.bays.length) : (s.setBay b x).bay b = x :=
  getD_set_self _ _ _ _ h
theorem State.bay_setBay_ne (b m : Nat) (x : Bay) (h : b ≠ m) : (s.setBay b x).bay m = s.bay m :=
  getD_set_ne _ _ _ _ _ h
theorem State.channel_setChannel_self (c : Nat) (x : Channel) (h : c < s.channels.length) :
    (s.setChannel c x).channel c = x :=
  getD_set_self _ _ _ _ h
theorem State.channel_setChannel_ne (c m : Nat) (x : Channel) (h : c ≠ m) : (s.setChannel c x).channel m = s.channel m :=
  getD_set_ne _ _ _ _ _ h
theorem State.twin_setTwin_self (t : Nat) (x : Option Twin) (h : t < s.twins.length) : (s.setTwin t x).twin t = x :=
  getD_set_self _ _ _ _ h
theorem State.twin_setTwin_ne (t m : Nat) (x : Option Twin) (h : t ≠ m) : (s.setTwin t x).twin m = s.twin m :=
  getD_set_ne _ _ _ _ _ h

/-- A link that holds a frame is one of the part's links. -/
theorem State.link_lt_of_inbound (l : Nat) (f : Frame) (h : (s.link l).inbound.head? = some f) : l < s.links.length := by
  by_contra hl
  simp [State.link, List.getD_eq_getElem?_getD, List.getElem?_eq_none (Nat.le_of_not_lt hl), Link.initial] at h

/-- A slot that holds a loan is one of the table's slots. -/
theorem State.slot_lt_of_loan (k : Nat) (l : Loan) (h : s.loan k = some l) : k < s.loans.length := by
  by_contra hk
  simp [State.loan, State.slot, List.getD_eq_getElem?_getD, List.getElem?_eq_none (Nat.le_of_not_lt hk)] at h

/-- A twin record that exists stands in one of the table's slots. -/
theorem State.twin_lt_of_some (t : Nat) (w : Twin) (h : s.twin t = some w) : t < s.twins.length := by
  by_contra ht
  simp [State.twin, List.getD_eq_getElem?_getD, List.getElem?_eq_none (Nat.le_of_not_lt ht)] at h

/-! ### The far ready line forgotten (R173, log entry 7) -/

@[simp] theorem Link.forgetLine_presence (l : Nat) (x : Link) : (x.forgetLine l).presence = x.presence := rfl
@[simp] theorem Link.forgetLine_receiver (l : Nat) (x : Link) : (x.forgetLine l).receiver = x.receiver := rfl
@[simp] theorem Link.forgetLine_inbound (l : Nat) (x : Link) : (x.forgetLine l).inbound = x.inbound := rfl
@[simp] theorem Link.forgetLine_placed (l : Nat) (x : Link) : (x.forgetLine l).placed = x.placed := rfl
@[simp] theorem Link.forgetLine_reserved (l : Nat) (x : Link) : (x.forgetLine l).reserved = x.reserved := rfl
@[simp] theorem Link.forgetLine_sending (l : Nat) (x : Link) : (x.forgetLine l).sending = x.sending := rfl
@[simp] theorem Link.forgetLine_heldWrite (l : Nat) (x : Link) : (x.forgetLine l).heldWrite = x.heldWrite := rfl
@[simp] theorem Link.forgetLine_waitingData (l : Nat) (x : Link) : (x.forgetLine l).waitingData = x.waitingData := rfl
@[simp] theorem Link.forgetLine_farReady (l : Nat) (x : Link) :
    (x.forgetLine l).farReady = Config.farReadyLine l x.lineReads := rfl
@[simp] theorem Link.forgetLine_lineReads (l : Nat) (x : Link) : (x.forgetLine l).lineReads = x.lineReads + 1 := rfl

/-! ### A bay whose operation has been answered -/

@[simp] theorem Bay.over_presence (x : Bay) : x.over.presence = x.presence := rfl
@[simp] theorem Bay.over_state (x : Bay) : x.over.state = x.state := rfl
@[simp] theorem Bay.over_faultCause (x : Bay) : x.over.faultCause = x.faultCause := rfl
@[simp] theorem Bay.over_capacity (x : Bay) : x.over.capacity = x.capacity := rfl
@[simp] theorem Bay.over_head (x : Bay) : x.over.head = x.head := rfl
@[simp] theorem Bay.over_cursor (x : Bay) : x.over.cursor = x.cursor := rfl
@[simp] theorem Bay.over_upkeepTimer (x : Bay) : x.over.upkeepTimer = x.upkeepTimer := rfl
@[simp] theorem Bay.over_upkeepDue (x : Bay) : x.over.upkeepDue = x.upkeepDue := rfl
@[simp] theorem Bay.over_powerOnSpin (x : Bay) : x.over.powerOnSpin = x.powerOnSpin := rfl
@[simp] theorem Bay.over_op (x : Bay) : x.over.op = none := rfl
@[simp] theorem Bay.over_opNumber (x : Bay) : x.over.opNumber = x.opNumber := rfl
@[simp] theorem Bay.over_opTimer (x : Bay) : x.over.opTimer = 0 := rfl
@[simp] theorem Bay.over_opLimit (x : Bay) : x.over.opLimit = 0 := rfl
@[simp] theorem Bay.over_weak (x : Bay) : x.over.weak = x.weak := rfl
@[simp] theorem Bay.over_ring (x : Bay) : x.over.ring = x.ring := rfl
@[simp] theorem Bay.over_deferral (x : Bay) : x.over.deferral = x.deferral := rfl
@[simp] theorem Bay.over_chosen (x : Bay) : x.over.chosen = x.chosen := rfl
@[simp] theorem Bay.over_chunkWrite (x : Bay) : x.over.chunkWrite = x.chunkWrite := rfl
@[simp] theorem Bay.over_service (x : Bay) : x.over.service = none := rfl
@[simp] theorem Bay.mediaError_presence (n : Nat) (x : Bay) : (x.mediaError n).presence = x.presence := rfl
@[simp] theorem Bay.mediaError_state (n : Nat) (x : Bay) : (x.mediaError n).state = x.state := rfl
@[simp] theorem Bay.mediaError_faultCause (n : Nat) (x : Bay) : (x.mediaError n).faultCause = x.faultCause := rfl
@[simp] theorem Bay.mediaError_capacity (n : Nat) (x : Bay) : (x.mediaError n).capacity = x.capacity := rfl
@[simp] theorem Bay.mediaError_head (n : Nat) (x : Bay) : (x.mediaError n).head = n + 1 := rfl
@[simp] theorem Bay.mediaError_cursor (n : Nat) (x : Bay) : (x.mediaError n).cursor = x.cursor := rfl
@[simp] theorem Bay.mediaError_upkeepTimer (n : Nat) (x : Bay) : (x.mediaError n).upkeepTimer = x.upkeepTimer := rfl
@[simp] theorem Bay.mediaError_upkeepDue (n : Nat) (x : Bay) : (x.mediaError n).upkeepDue = x.upkeepDue := rfl
@[simp] theorem Bay.mediaError_powerOnSpin (n : Nat) (x : Bay) : (x.mediaError n).powerOnSpin = x.powerOnSpin := rfl
@[simp] theorem Bay.mediaError_op (n : Nat) (x : Bay) : (x.mediaError n).op = none := rfl
@[simp] theorem Bay.mediaError_opNumber (n : Nat) (x : Bay) : (x.mediaError n).opNumber = x.opNumber := rfl
@[simp] theorem Bay.mediaError_opTimer (n : Nat) (x : Bay) : (x.mediaError n).opTimer = 0 := rfl
@[simp] theorem Bay.mediaError_opLimit (n : Nat) (x : Bay) : (x.mediaError n).opLimit = 0 := rfl
@[simp] theorem Bay.mediaError_weak (n : Nat) (x : Bay) : (x.mediaError n).weak = joinedWeak x.weak n := rfl
@[simp] theorem Bay.mediaError_ring (n : Nat) (x : Bay) : (x.mediaError n).ring = x.ring := rfl
@[simp] theorem Bay.mediaError_deferral (n : Nat) (x : Bay) : (x.mediaError n).deferral = x.deferral := rfl
@[simp] theorem Bay.mediaError_chosen (n : Nat) (x : Bay) : (x.mediaError n).chosen = x.chosen := rfl
@[simp] theorem Bay.mediaError_chunkWrite (n : Nat) (x : Bay) : (x.mediaError n).chunkWrite = x.chunkWrite := rfl
@[simp] theorem Bay.mediaError_service (n : Nat) (x : Bay) : (x.mediaError n).service = none := rfl

/-! ### Bay.dropping -/
@[simp] theorem Bay.dropping_presence (ref : CommandRef) (x : Bay) : (x.dropping ref).presence = x.presence := rfl
@[simp] theorem Bay.dropping_state (ref : CommandRef) (x : Bay) : (x.dropping ref).state = x.state := rfl
@[simp] theorem Bay.dropping_faultCause (ref : CommandRef) (x : Bay) : (x.dropping ref).faultCause = x.faultCause := rfl
@[simp] theorem Bay.dropping_capacity (ref : CommandRef) (x : Bay) : (x.dropping ref).capacity = x.capacity := rfl
@[simp] theorem Bay.dropping_head (ref : CommandRef) (x : Bay) : (x.dropping ref).head = x.head := rfl
@[simp] theorem Bay.dropping_cursor (ref : CommandRef) (x : Bay) : (x.dropping ref).cursor = x.cursor := rfl
@[simp] theorem Bay.dropping_upkeepTimer (ref : CommandRef) (x : Bay) : (x.dropping ref).upkeepTimer = x.upkeepTimer := rfl
@[simp] theorem Bay.dropping_upkeepDue (ref : CommandRef) (x : Bay) : (x.dropping ref).upkeepDue = x.upkeepDue := rfl
@[simp] theorem Bay.dropping_powerOnSpin (ref : CommandRef) (x : Bay) : (x.dropping ref).powerOnSpin = x.powerOnSpin := rfl
@[simp] theorem Bay.dropping_op (ref : CommandRef) (x : Bay) : (x.dropping ref).op = x.op := rfl
@[simp] theorem Bay.dropping_opNumber (ref : CommandRef) (x : Bay) : (x.dropping ref).opNumber = x.opNumber := rfl
@[simp] theorem Bay.dropping_opTimer (ref : CommandRef) (x : Bay) : (x.dropping ref).opTimer = x.opTimer := rfl
@[simp] theorem Bay.dropping_opLimit (ref : CommandRef) (x : Bay) : (x.dropping ref).opLimit = x.opLimit := rfl
@[simp] theorem Bay.dropping_weak (ref : CommandRef) (x : Bay) : (x.dropping ref).weak = x.weak := rfl
@[simp] theorem Bay.dropping_ring (ref : CommandRef) (x : Bay) : (x.dropping ref).ring = x.ring.filterMap (Member.without ref) := rfl
@[simp] theorem Bay.dropping_deferral (ref : CommandRef) (x : Bay) : (x.dropping ref).deferral = x.deferral := rfl
@[simp] theorem Bay.dropping_chosen (ref : CommandRef) (x : Bay) : (x.dropping ref).chosen = x.chosen := rfl
@[simp] theorem Bay.dropping_chunkWrite (ref : CommandRef) (x : Bay) : (x.dropping ref).chunkWrite = x.chunkWrite := rfl
@[simp] theorem Bay.dropping_service (ref : CommandRef) (x : Bay) : (x.dropping ref).service = x.service := rfl

/-! ### withoutLoan -/

@[simp] theorem State.withoutLoan_links (k : Nat) (r : Command) : (s.withoutLoan k r).links = s.links := rfl
@[simp] theorem State.withoutLoan_loans (k : Nat) (r : Command) :
    (s.withoutLoan k r).loans = s.loans.set k { issue := (s.slot k).issue, loan := none } := rfl
@[simp] theorem State.withoutLoan_waits (k : Nat) (r : Command) : (s.withoutLoan k r).waits = s.waits := rfl
@[simp] theorem State.withoutLoan_arrival (k : Nat) (r : Command) : (s.withoutLoan k r).arrival = s.arrival := rfl
@[simp] theorem State.withoutLoan_records (k : Nat) (r : Command) :
    (s.withoutLoan k r).records = s.records.eraseP fun x => x.ref == r.ref := rfl
@[simp] theorem State.withoutLoan_poolFree (k : Nat) (r : Command) : (s.withoutLoan k r).poolFree = s.poolFree + r.held := rfl
@[simp] theorem State.withoutLoan_poolWait (k : Nat) (r : Command) : (s.withoutLoan k r).poolWait = s.poolWait := rfl
@[simp] theorem State.withoutLoan_bays (k : Nat) (r : Command) : (s.withoutLoan k r).bays = s.bays := rfl
@[simp] theorem State.withoutLoan_spinQueue (k : Nat) (r : Command) : (s.withoutLoan k r).spinQueue = s.spinQueue := rfl
@[simp] theorem State.withoutLoan_channels (k : Nat) (r : Command) : (s.withoutLoan k r).channels = s.channels := rfl
@[simp] theorem State.withoutLoan_twins (k : Nat) (r : Command) : (s.withoutLoan k r).twins = s.twins := rfl
@[simp] theorem State.withoutLoan_settings (k : Nat) (r : Command) : (s.withoutLoan k r).settings = s.settings := rfl
@[simp] theorem State.withoutLoan_notices (k : Nat) (r : Command) : (s.withoutLoan k r).notices = s.notices := rfl
@[simp] theorem State.withoutLoan_store (k : Nat) (r : Command) : (s.withoutLoan k r).store = s.store := rfl
@[simp] theorem State.withoutLoan_saving (k : Nat) (r : Command) : (s.withoutLoan k r).saving = s.saving := rfl
@[simp] theorem State.withoutLoan_cause (k : Nat) (r : Command) : (s.withoutLoan k r).cause = s.cause := rfl
@[simp] theorem State.withoutLoan_scanDue (k : Nat) (r : Command) : (s.withoutLoan k r).scanDue = s.scanDue := rfl
@[simp] theorem State.withoutLoan_pending (k : Nat) (r : Command) : (s.withoutLoan k r).pending = s.pending := rfl

/-! ### hotCopied -/

@[simp] theorem State.hotCopied_links (b target c i : Nat) : (s.hotCopied b target c i).links = s.links := rfl
@[simp] theorem State.hotCopied_loans (b target c i : Nat) : (s.hotCopied b target c i).loans = s.loans := rfl
@[simp] theorem State.hotCopied_waits (b target c i : Nat) : (s.hotCopied b target c i).waits = s.waits := rfl
@[simp] theorem State.hotCopied_arrival (b target c i : Nat) : (s.hotCopied b target c i).arrival = s.arrival := rfl
@[simp] theorem State.hotCopied_records (b target c i : Nat) : (s.hotCopied b target c i).records = s.records := rfl
@[simp] theorem State.hotCopied_poolFree (b target c i : Nat) : (s.hotCopied b target c i).poolFree = s.poolFree := rfl
@[simp] theorem State.hotCopied_poolWait (b target c i : Nat) : (s.hotCopied b target c i).poolWait = s.poolWait := rfl
@[simp] theorem State.hotCopied_spinQueue (b target c i : Nat) : (s.hotCopied b target c i).spinQueue = s.spinQueue := rfl
@[simp] theorem State.hotCopied_settings (b target c i : Nat) : (s.hotCopied b target c i).settings = s.settings := rfl
@[simp] theorem State.hotCopied_store (b target c i : Nat) : (s.hotCopied b target c i).store = s.store := rfl
@[simp] theorem State.hotCopied_saving (b target c i : Nat) : (s.hotCopied b target c i).saving = s.saving := rfl
@[simp] theorem State.hotCopied_cause (b target c i : Nat) : (s.hotCopied b target c i).cause = s.cause := rfl
@[simp] theorem State.hotCopied_scanDue (b target c i : Nat) : (s.hotCopied b target c i).scanDue = s.scanDue := rfl
@[simp] theorem State.hotCopied_pending (b target c i : Nat) : (s.hotCopied b target c i).pending = s.pending := rfl

end Sys2Proof.Machine
end

