-- ==== Sys2Proof/Laws/Records.lean ====
section
/-! SUPPORT. What changing one command record, and giving and returning buffers, do to the records and the free count. -/

namespace Sys2Proof.Machine

theorem find?_modifyFirst {α : Type} (p : α → Bool) (f : α → α) (hf : ∀ a, p a = true → p (f a) = true) (as : List α) :
    (modifyFirst p f as).find? p = (as.find? p).map f := by
  induction as with
  | nil => rfl
  | cons a as ih =>
    by_cases h : p a
    · simp [modifyFirst, h, hf a h]
    · simp [modifyFirst, h, ih]

/-- A record that is found under a name has that name. -/
theorem State.ref_of_record {s : State} {ref : CommandRef} {r : Command} (h : s.record ref = some r) : r.ref = ref := by
  have := List.find?_some h
  simpa using this

/-- Changing a record changes what is found under its name, when the change keeps the name. -/
theorem State.record_modRecord (s : State) (ref : CommandRef) (f : Command → Command) (hf : ∀ r, (f r).ref = r.ref) :
    (s.modRecord ref f).record ref = (s.record ref).map f :=
  find?_modifyFirst _ _ (fun r h => by simpa [hf r] using h) _

theorem sum_held_modifyFirst (p : Command → Bool) (f : Command → Command) (rs : List Command) (r : Command)
    (h : rs.find? p = some r) :
    ((modifyFirst p f rs).map Command.held).sum + r.held = (rs.map Command.held).sum + (f r).held := by
  induction rs with
  | nil => simp at h
  | cons a as ih =>
    by_cases hp : p a
    · simp only [List.find?_cons, hp, Option.some.injEq] at h
      subst h
      simp only [modifyFirst, hp, if_true, List.map_cons, List.sum_cons]
      omega
    · simp only [List.find?_cons, hp] at h
      simp only [modifyFirst, hp, Bool.false_eq_true, if_false, List.map_cons, List.sum_cons]
      have := ih h
      omega

theorem modifyFirst_of_none {α : Type} (p : α → Bool) (f : α → α) (as : List α) (h : as.find? p = none) :
    modifyFirst p f as = as := by
  induction as with
  | nil => rfl
  | cons a as ih =>
    rw [List.find?_cons] at h
    by_cases hp : p a
    · simp [hp] at h
    · simp only [hp] at h
      simp [modifyFirst, hp, ih h]

theorem sum_held_modifyFirst_same (p : Command → Bool) (f : Command → Command) (rs : List Command)
    (hf : ∀ r, rs.find? p = some r → (f r).held = r.held) :
    ((modifyFirst p f rs).map Command.held).sum = (rs.map Command.held).sum := by
  cases h : rs.find? p with
  | none => rw [modifyFirst_of_none _ _ _ h]
  | some r => have := sum_held_modifyFirst p f rs r h; have := hf r h; omega

theorem sum_held_eraseP (p : Command → Bool) (rs : List Command) (h : ∀ r, rs.find? p = some r → r.held = 0) :
    ((rs.eraseP p).map Command.held).sum = (rs.map Command.held).sum := by
  induction rs with
  | nil => rfl
  | cons a as ih =>
    by_cases hp : p a
    · have h0 : a.held = 0 := h a (by simp [hp])
      simp [hp, h0]
    · rw [List.eraseP_cons_of_neg (by simp [hp])]
      simp only [List.map_cons, List.sum_cons]
      rw [ih (fun r hr => h r (by simp [hp, hr]))]

theorem held_le_sum {rs : List Command} {r : Command} (h : r ∈ rs) : r.held ≤ (rs.map Command.held).sum :=
  List.single_le_sum (by simp) _ (List.mem_map_of_mem h)

/-- Returning all of a record's buffers leaves it holding none. -/
theorem record_giveBack_all (ref : CommandRef) (r : Command) (s : State) (h : s.record ref = some r) (x : Command)
    (hx : (giveBack ref r.held s).record ref = some x) : x.held = 0 := by
  have e : (giveBack ref r.held s).record ref =
      (s.modRecord ref fun q => { q with held := q.held - min r.held r.held }).record ref := by
    simp only [giveBack, h]; rfl
  rw [e, State.record_modRecord s ref (fun q => { q with held := q.held - min r.held r.held }) (fun _ => rfl), h] at hx
  simp only [Option.map_some, Option.some.injEq] at hx
  subst hx
  simp

end Sys2Proof.Machine
end

