-- ==== Sys2Proof/Laws/Moves.lean ====
section
/-! SUPPORT. What the shared operations can do, said once: each is a chain of small moves. An invariant that every move
keeps is kept by every operation. -/

namespace Sys2Proof.Machine

/-- The moves that ends of loans and of commands are made of. -/
inductive EndMove : State → State → Prop
  | slot (s : State) (k : Nat) (x : Slot) (h : (s.slot k).movesActive → x.movesActive) : EndMove s (s.setSlot k x)
  | place (s : State) (l : Nat) (o : OutRecord) : EndMove s (place l o s)
  | placeReserved (s : State) (l : Nat) (o : OutRecord) : EndMove s (placeReserved l o s)
  | giveBack (s : State) (ref : CommandRef) (n : Nat) : EndMove s (giveBack ref n s)
  | mark (s : State) (ref : CommandRef) (f : Command → Command)
      (h : ∀ r, s.record ref = some r → (f r).held = r.held ∧ (f r).ref = r.ref) : EndMove s (s.modRecord ref f)
  | erase (s : State) (ref : CommandRef) (h : ∀ r, s.record ref = some r → r.held = 0) :
      EndMove s { s with records := s.records.eraseP fun r => r.ref == ref }
  | drop (s : State) (b : Nat) (ref : CommandRef) : EndMove s (ringDrop b ref s)
  | freeTwin (s : State) (t : Nat) : EndMove s (s.setTwin t none)
  | owe (s : State) : EndMove s s.oweScan

/-- A chain of such moves. -/
abbrev EndChain : State → State → Prop := Relation.ReflTransGen EndMove

theorem EndMove.chain {s t : State} (h : EndMove s t) : EndChain s t := .single h

/-- A fold of operations that each are a chain is a chain. -/
theorem foldl_chain {α : Type} {R : State → State → Prop} (g : State → α → State)
    (h : ∀ s a, Relation.ReflTransGen R s (g s a)) (as : List α) (s : State) :
    Relation.ReflTransGen R s (as.foldl g s) := by
  induction as generalizing s with
  | nil => exact .refl
  | cons a as ih => exact (h s a).trans (ih _)

theorem eachSlot_chain {R : State → State → Prop} (g : Nat → State → State)
    (h : ∀ k s, Relation.ReflTransGen R s (g k s)) (s : State) : Relation.ReflTransGen R s (s.eachSlot g) :=
  foldl_chain _ (fun s k => h k s) _ s

/-! ### Ends (R14 to R18, R61) -/

/-- A loan that is changed may hold a move only if it is ACTIVE, given that of the loan in its slot. -/
theorem setLoan_chain (k : Nat) (l : Loan) (s : State)
    (h : (∀ x, s.loan k = some x → x.move ≠ none → x.state = .active) → l.move ≠ none → l.state = .active) :
    EndChain s (s.setLoan k l) :=
  (EndMove.slot s k _ fun g _ e => by cases e; exact h g).chain

/-- So may one that is changed in other fields. -/
theorem setLoan_keep {k : Nat} {x : Loan} (l : Loan) {s : State} (h : s.loan k = some x) (hm : l.move = x.move)
    (hs : l.state = x.state) : EndChain s (s.setLoan k l) :=
  setLoan_chain k l s fun g e => hs ▸ g x h (hm ▸ e)

theorem loan_place (l : Nat) (o : OutRecord) (s : State) (k : Nat) : (place l o s).loan k = s.loan k := by
  unfold place; split <;> rfl

theorem loan_placeReserved (l : Nat) (o : OutRecord) (s : State) (k : Nat) :
    (placeReserved l o s).loan k = s.loan k := by
  unfold placeReserved; split <;> rfl

theorem freeTwinIfUnnamed_chain (t : Nat) (s : State) : EndChain s (freeTwinIfUnnamed t s) := by
  unfold freeTwinIfUnnamed
  split
  · split
    · exact (EndMove.freeTwin s t).chain.tail (EndMove.owe _)
    · exact .refl
  · exact .refl

theorem freeSlot_chain (k : Nat) (s : State) : EndChain s (freeSlot k s) := by
  unfold freeSlot
  split
  · exact .refl
  · have h := (EndMove.slot s k { s.slot k with loan := none } fun _ _ e => by cases e).chain.tail (EndMove.owe _)
    dsimp only
    split
    · exact h.trans (freeTwinIfUnnamed_chain _ _)
    · exact h

theorem placeLoanNotice_chain (k : Nat) (s : State) : EndChain s (placeLoanNotice k s) := by
  unfold placeLoanNotice
  split
  · exact .refl
  · rename_i l h
    dsimp only
    split
    · exact (EndMove.place _ _ _).chain.trans (freeSlot_chain _ _)
    · exact (EndMove.place _ _ _).chain.trans (setLoan_chain _ _ _ fun g => g l (by rw [loan_place]; exact h))
    · exact .refl

theorem offerLoanNotices_chain (n : Nat) (s : State) : EndChain s (offerLoanNotices n s) :=
  eachSlot_chain _ (fun k s => by
    split
    · exact placeLoanNotice_chain k s
    · exact .refl) s

theorem enterEnded_chain (k : Nat) (s : State) (hs : ∀ l, s.loan k = some l → l.state ≠ .active) :
    EndChain s (enterEnded k s) := by
  unfold enterEnded
  split
  · exact .refl
  · rename_i l h
    split
    · exact freeSlot_chain k s
    · dsimp only
      split
      · refine .trans (.trans (EndMove.placeReserved _ _ _).chain (setLoan_chain _ _ _ fun g hm => ?_)) (freeSlot_chain _ _)
        exact absurd (g l (by rw [loan_placeReserved]; exact h) hm) (hs l h)
      · refine .trans (setLoan_chain _ _ _ fun g hm => ?_) (offerLoanNotices_chain _ _)
        exact absurd (g l h hm) (hs l h)

theorem endIfIdle_chain (k : Nat) (s : State) : EndChain s (endIfIdle k s) := by
  unfold endIfIdle
  split
  · rename_i l h
    split
    · rename_i hc
      refine enterEnded_chain k s fun x hx e => ?_
      cases h.symm.trans hx
      rcases hc.1 with h | h <;> simp [h] at e
    · exact .refl
  · exact .refl

theorem freeRecord_chain (ref : CommandRef) (s : State) : EndChain s (freeRecord ref s) := by
  unfold freeRecord
  split
  · exact .refl
  · rename_i r h
    have e := (EndMove.giveBack s ref r.held).chain.tail
      (EndMove.erase _ ref fun x hx => record_giveBack_all ref r s h x hx)
    dsimp only
    split
    · exact e
    · rename_i l h
      refine (e.trans (setLoan_keep _ h ?_ ?_)).trans (endIfIdle_chain _ _) <;> rfl

theorem freeIfDone_chain (ref : CommandRef) (s : State) : EndChain s (freeIfDone ref s) := by
  unfold freeIfDone
  split
  · split
    · exact freeRecord_chain ref s
    · exact .refl
  · exact .refl

theorem finalReply_chain (ref : CommandRef) (out : Record) (s : State) : EndChain s (finalReply ref out s) := by
  unfold finalReply
  split
  · exact .refl
  · dsimp only
    refine Relation.ReflTransGen.tail ?_ (EndMove.mark _ ref _ fun r _ => ⟨rfl, rfl⟩)
    split
    · exact .refl
    · exact (EndMove.placeReserved _ _ _).chain

theorem endDone_chain (ref : CommandRef) (st : Status) (n : Nat) (s : State) : EndChain s (endDone ref st n s) :=
  (finalReply_chain _ _ _).trans (freeRecord_chain _ _)

theorem endStream_chain (ref : CommandRef) (st : Status) (s : State) : EndChain s (endStream ref st s) := by
  unfold endStream
  split
  · exact .refl
  · refine .trans (.tail (finalReply_chain _ _ _) (EndMove.mark _ ref _ ?_)) (freeIfDone_chain _ _)
    exact fun r _ => ⟨rfl, rfl⟩

theorem settleRead_chain (ref : CommandRef) (s : State) : EndChain s (settleRead ref s) := by
  unfold settleRead
  split
  · exact .refl
  · split
    · split
      · exact .refl
      · exact (finalReply_chain _ _ _).trans (freeIfDone_chain _ _)
    · exact .refl

theorem countDelivered_chain (ref : CommandRef) (s : State) : EndChain s (countDelivered ref s) := by
  refine (EndMove.mark s ref _ ?_).chain
  intro r _
  split <;> exact ⟨rfl, rfl⟩

theorem ringDrop_chain (b : Nat) (ref : CommandRef) (s : State) : EndChain s (ringDrop b ref s) := (EndMove.drop s b ref).chain

theorem endWork_chain (bay : Nat) (reason : EndReason) (first : Bool) (ref : CommandRef) (s : State) :
    EndChain s (endWork bay reason first ref s) := by
  have mark (f : Command → Command) (h : ∀ r, (f r).held = r.held ∧ (f r).ref = r.ref) :
      EndChain s (s.modRecord ref f) := (EndMove.mark s ref f fun r _ => h r).chain
  unfold endWork
  split
  · exact .refl
  · dsimp only
    split
    · exact (ringDrop_chain _ _ _).trans (endStream_chain _ _ _)
    · exact (ringDrop_chain _ _ _).trans (endDone_chain _ _ _ _)
    · exact endDone_chain _ _ _ _
    · split
      · split
        · exact freeRecord_chain _ _
        · exact .refl
      · split
        · exact freeRecord_chain _ _
        · exact mark _ fun r => ⟨rfl, rfl⟩
    · split
      · exact mark _ fun r => ⟨rfl, rfl⟩
      · split
        · exact freeRecord_chain _ _
        · exact .refl

theorem decideEnd_chain (k : Nat) (reason : EndReason) (s : State) : EndChain s (decideEnd k reason s) := by
  unfold decideEnd
  split
  · exact .refl
  · split
    · dsimp only
      exact (((setLoan_chain _ _ _ fun _ h => absurd rfl h).tail (EndMove.owe _)).trans
        (foldl_chain _ (fun s ref => endWork_chain _ _ _ ref s) _ _)).trans (endIfIdle_chain _ _)
    · split
      · dsimp only
        split
        · refine .trans (.trans (.tail (setLoan_keep _ ‹s.loan k = _› ?_ ?_) (EndMove.owe _))
            (foldl_chain _ (fun s ref => endWork_chain _ _ _ ref s) _ _)) (freeSlot_chain _ _) <;> rfl
        · refine .trans (.trans (.tail (setLoan_keep _ ‹s.loan k = _› ?_ ?_) (EndMove.owe _))
            (foldl_chain _ (fun s ref => endWork_chain _ _ _ ref s) _ _)) (endIfIdle_chain _ _) <;> rfl
      · exact .refl

theorem recompute_chain (k : Nat) (s : State) : EndChain s (recompute k s) := by
  unfold recompute
  split
  · exact .refl
  · dsimp only
    split
    · refine .trans (setLoan_keep _ ‹s.loan k = _› ?_ ?_) (decideEnd_chain _ _ _) <;> rfl
    · refine setLoan_keep _ ‹s.loan k = _› ?_ ?_ <;> rfl

theorem recomputeWhere_chain (p : State → Loan → Bool) (s : State) : EndChain s (recomputeWhere p s) :=
  eachSlot_chain _ (fun k s => by
    split
    · split
      · exact recompute_chain k s
      · exact .refl
    · exact .refl) s

theorem recomputeAgainst_chain (e : WaitEntry) (s : State) : EndChain s (recomputeAgainst e s) := by
  unfold recomputeAgainst
  split
  · exact .refl
  · exact recomputeWhere_chain _ s

theorem refuseEntry_chain (e : WaitEntry) (reason : NodeReason) (s : State) : EndChain s (refuseEntry e reason s) :=
  ((EndMove.placeReserved _ _ _).chain.trans (recomputeAgainst_chain _ _)).tail (EndMove.owe _)

/-! ### What an end leaves alone -/

/-- The parts of the state that no end of a loan or command touches. -/
structure EndFrame (s t : State) : Prop where
  waits     : t.waits = s.waits
  arrival   : t.arrival = s.arrival
  poolWait  : t.poolWait = s.poolWait
  spinQueue : t.spinQueue = s.spinQueue
  channels  : t.channels = s.channels
  settings  : t.settings = s.settings
  notices   : t.notices = s.notices
  store     : t.store = s.store
  saving    : t.saving = s.saving
  cause     : t.cause = s.cause
  pending   : t.pending = s.pending
  slots     : t.loans.length = s.loans.length
  bays      : ∀ b, { t.bay b with ring := [] } = { s.bay b with ring := [] }

theorem EndFrame.refl (s : State) : EndFrame s s := by constructor <;> intros <;> rfl

theorem EndFrame.trans {s t u : State} (a : EndFrame s t) (b : EndFrame t u) : EndFrame s u := by
  constructor
  case bays => exact fun k => (b.bays k).trans (a.bays k)
  all_goals first
    | exact b.waits.trans a.waits | exact b.arrival.trans a.arrival | exact b.poolWait.trans a.poolWait
    | exact b.spinQueue.trans a.spinQueue | exact b.channels.trans a.channels | exact b.settings.trans a.settings
    | exact b.notices.trans a.notices | exact b.store.trans a.store | exact b.saving.trans a.saving
    | exact b.cause.trans a.cause | exact b.pending.trans a.pending
    | exact b.slots.trans a.slots

/-- Changing a bay by a function that touches only the ring leaves every bay's other parts alone. -/
theorem bay_modBay_ring (s : State) (b : Nat) (f : Bay → Bay) (h : ∀ x, { f x with ring := [] } = { x with ring := [] })
    (k : Nat) : { (s.modBay b f).bay k with ring := [] } = { s.bay k with ring := [] } := by
  by_cases e : b = k
  · subst e
    by_cases hl : b < s.bays.length
    · rw [State.modBay, State.bay_setBay_self _ _ _ hl, h]
    · rw [State.modBay, State.setBay, List.set_eq_of_length_le (Nat.le_of_not_lt hl)]
  · rw [State.modBay, State.bay_setBay_ne _ _ _ _ e]

theorem EndMove.frame {s t : State} (h : EndMove s t) : EndFrame s t := by
  cases h with
  | slot k x h => constructor <;> intros <;> simp [State.bay]
  | place l o => unfold Machine.place; split <;> constructor <;> intros <;> rfl
  | placeReserved l o => unfold Machine.placeReserved; split <;> constructor <;> intros <;> rfl
  | giveBack ref n => unfold Machine.giveBack; split <;> constructor <;> intros <;> rfl
  | mark ref f h => constructor <;> intros <;> rfl
  | erase ref h => constructor <;> intros <;> rfl
  | drop b ref =>
    constructor
    case bays => exact bay_modBay_ring s b _ fun x => rfl
    all_goals rfl
  | freeTwin t => constructor <;> intros <;> rfl
  | owe => constructor <;> intros <;> rfl

theorem EndChain.frame {s t : State} (h : EndChain s t) : EndFrame s t := by
  induction h with
  | refl => exact .refl s
  | tail _ m ih => exact ih.trans m.frame

/-! ### Grants (R10, R34, R36 to R38) -/

/-- The moves that grants and departures from the wait list are made of. -/
inductive GrantMove : State → State → Prop
  | ends {s t : State} (h : EndMove s t) : GrantMove s t
  | waits (s : State) (ws : List WaitEntry) (h : ws.Sublist s.waits) : GrantMove s { s with waits := ws }
  | stale (s : State) (b : Nat) (range : Option Range) :
      GrantMove s { s with twins := s.twins.map (Option.map (Twin.stale b range)) }
  | scanned (s : State) : GrantMove s { s with scanDue := false }

abbrev GrantChain : State → State → Prop := Relation.ReflTransGen GrantMove

theorem GrantMove.chain {s t : State} (h : GrantMove s t) : GrantChain s t := .single h
theorem EndChain.grant {s t : State} (h : EndChain s t) : GrantChain s t := by
  induction h with
  | refl => exact .refl
  | tail _ m ih => exact ih.tail (.ends m)

theorem staleTwins_chain (b : Nat) (range : Option Range) (s : State) : GrantChain s (staleTwins b range s) := by
  unfold staleTwins
  dsimp only
  split
  · exact .refl
  · exact (GrantMove.stale s b range).chain.tail (.ends (EndMove.owe _))

theorem makeLoan_chain (k n tag bay : Nat) (kind : LoanKind) (cls : Cls) (range : Option Range) (s : State) :
    GrantChain s (makeLoan k n tag bay kind cls range s) := by
  unfold makeLoan
  dsimp only
  split
  · exact .trans (EndChain.grant (.tail (EndMove.slot _ _ _ fun _ _ e _ => by cases e; rfl).chain (EndMove.placeReserved _ _ _))) (staleTwins_chain _ _ _)
  · exact EndChain.grant (.tail (EndMove.slot _ _ _ fun _ _ e _ => by cases e; rfl).chain (EndMove.placeReserved _ _ _))

theorem makeLoan_waits (k n tag bay : Nat) (kind : LoanKind) (cls : Cls) (range : Option Range) (s : State) :
    (makeLoan k n tag bay kind cls range s).waits = s.waits := by
  have h (t : State) (b : Nat) (r : Option Range) : (staleTwins b r t).waits = t.waits := by
    unfold staleTwins; dsimp only; split <;> rfl
  unfold makeLoan
  dsimp only
  split
  · rw [h]; exact (EndMove.placeReserved _ _ _).frame.waits
  · exact (EndMove.placeReserved _ _ _).frame.waits

theorem removeWaits_chain (p : WaitEntry → Bool) (reason : NodeReason) (s : State) :
    GrantChain s (removeWaits p reason s) := by
  unfold removeWaits
  dsimp only
  split
  · exact .refl
  · exact (GrantMove.waits s _ List.filter_sublist).chain.trans
      (foldl_chain _ (fun s e => (refuseEntry_chain e reason s).grant) _ _)

theorem removeWaitsOn_chain (b : Nat) (reason : NodeReason) (s : State) : GrantChain s (removeWaitsOn b reason s) :=
  removeWaits_chain _ _ _

theorem scanFrom_chain (todo kept : List WaitEntry) (s : State) (h : s.waits = kept ++ todo) :
    GrantChain s (scanFrom kept todo s) := by
  induction todo generalizing kept s with
  | nil => exact .refl
  | cons e rest ih =>
    have less : GrantChain s { s with waits := kept ++ rest } :=
      (GrantMove.waits s _ (by rw [h]; exact List.Sublist.append_left (List.sublist_cons_self e rest) kept)).chain
    have refuse (reason : NodeReason) :
        GrantChain s (scanFrom kept rest (refuseEntry e reason { s with waits := kept ++ rest })) :=
      (less.trans (refuseEntry_chain e reason _).grant).trans (ih kept _ (refuseEntry_chain e reason _).frame.waits)
    have stay : GrantChain s (scanFrom (kept ++ [e]) rest s) := ih _ s (by rw [h]; simp)
    simp only [scanFrom]
    split
    · exact stay
    split
    · exact refuse _
    split
    · exact refuse _
    split
    · exact refuse _
    split
    · split
      · exact .refl
      · refine ((less.trans (makeLoan_chain _ _ _ _ _ _ _ _)).trans (recomputeAgainst_chain e _).grant).trans
          (ih kept _ ?_)
        rw [(recomputeAgainst_chain e _).frame.waits, makeLoan_waits]
    · exact stay

theorem grantScan_chain (s : State) : GrantChain s (grantScan s) :=
  (scanFrom_chain s.waits [] s (by simp)).tail (.scanned _)

theorem finish_chain (s : State) : GrantChain s (finish s) := by
  unfold finish
  split
  · exact grantScan_chain s
  · exact .refl

end Sys2Proof.Machine
end

