-- ==== Sys2Proof/Laws/Chains.lean ====
section
/-! SUPPORT. The moves of every command but the resets, and the chains that the shared operations and the meanings are. -/

namespace Sys2Proof.Machine

/-- The moves that a command is made of, a reset excepted, with what each is bound to keep. -/
inductive Move : State → State → Prop
  | grant {s t : State} (h : GrantMove s t) : Move s t
  | link (s : State) (l : Nat) (x : Link) (h : (s.link l).bounded → x.bounded) : Move s (s.setLink l x)
  | bay (s : State) (b : Nat) (x : Bay) (hs : x.state = (s.bay b).state) (hb : (s.bay b).bounded → x.bounded) :
      Move s (s.setBay b x)
  | bayState (s : State) (b : Nat) (st : BayState) (h : st = .spinning → s.spinningCount < s.settings.spinGroup) :
      Move s (setBayState b st s)
  | channel (s : State) (c : Nat) (x : Channel)
      (h : (s.channel c).emptyWhenFree → x.emptyWhenFree ∧ x.held = (s.channel c).held) : Move s (s.setChannel c x)
  | giveBackChannel (s : State) (c : Nat) : Move s (giveBackChannel c s)
  | lendChannel (s : State) (c n : Nat) : Move s (lendChannel c n s)
  | lend (s : State) (ref : CommandRef) (n : Nat) : Move s (lend ref n s)
  | record (s : State) (r : Command) (h : r.held = 0) : Move s { s with records := s.records ++ [r] }
  | twin (s : State) (t : Nat) (x : Option Twin) : Move s (s.setTwin t x)
  | poolWait (s : State) (ws : List Waiter) : Move s { s with poolWait := ws }
  | spinQueue (s : State) (q : List Nat) : Move s { s with spinQueue := q }
  | queue (s : State) (e : WaitEntry) (n : Nat) (h : s.waits.length < Config.waitEntries) :
      Move s { s with waits := insertWait e s.waits, arrival := n }
  | remask (s : State) :
      Move s { s with waits := s.waits.map fun e => { e with masked := masks s.settings.level e.cls } }
  | settings (s : State) (x : Settings) (hp : x.profiles.length = s.settings.profiles.length)
      (hn : x.nodeTable.length = s.settings.nodeTable.length)
      (hg : s.spinningCount ≤ s.settings.spinGroup → s.spinningCount ≤ x.spinGroup) : Move s { s with settings := x }
  | notices (s : State) (ns : Notices) : Move s { s with notices := ns }
  | store (s : State) (bytes : List Byte) (v : Option Save) : Move s { s with store := bytes, saving := v }
  | cause (s : State) (x : Cause) : Move s { s with cause := x }
  | tick (s : State) : Move s (tickState s)

abbrev Chain : State → State → Prop := Relation.ReflTransGen Move

theorem Move.chain {s t : State} (h : Move s t) : Chain s t := .single h

theorem GrantChain.shelf {s t : State} (h : GrantChain s t) : Chain s t := by
  induction h with
  | refl => exact .refl
  | tail _ m ih => exact ih.tail (.grant m)

theorem EndChain.shelf {s t : State} (h : EndChain s t) : Chain s t := h.grant.shelf

theorem EndMove.shelf {s t : State} (h : EndMove s t) : Chain s t := h.chain.shelf

/-- A chain, when a test picks the operation. -/
theorem Chain.ite {c : Prop} [Decidable c] {s a b : State} (ha : c → Chain s a) (hb : ¬c → Chain s b) :
    Chain s (if c then a else b) := by
  split
  · exact ha ‹_›
  · exact hb ‹_›

/-! ### Changing one part -/

theorem modLink_chain (l : Nat) (f : Link → Link) (s : State) (h : ∀ x, x.bounded → (f x).bounded) :
    Chain s (s.modLink l f) :=
  (Move.link s l _ (h _)).chain

theorem modBay_chain (b : Nat) (f : Bay → Bay) (s : State) (hs : ∀ x, (f x).state = x.state)
    (hb : ∀ x, x.bounded → (f x).bounded) : Chain s (s.modBay b f) :=
  (Move.bay s b _ (hs _) (hb _)).chain

theorem modChannel_chain (c : Nat) (f : Channel → Channel) (s : State) (h : ∀ x, (f x).busy = x.busy ∧ (f x).held = x.held) :
    Chain s (s.modChannel c f) := by
  refine (Move.channel s c _ fun he => ⟨?_, (h _).2⟩).chain
  unfold Channel.emptyWhenFree at he ⊢
  rw [(h _).1, (h _).2]
  exact he

theorem modRecord_chain (ref : CommandRef) (f : Command → Command) (s : State)
    (h : ∀ r, (f r).held = r.held ∧ (f r).ref = r.ref) : Chain s (s.modRecord ref f) :=
  (EndMove.mark s ref f fun r _ => h r).shelf

theorem setTwin_chain (t : Nat) (x : Option Twin) (s : State) : Chain s (s.setTwin t x) := (Move.twin s t x).chain

theorem modTwin_chain (t : Nat) (f : Twin → Twin) (s : State) : Chain s (s.modTwin t f) := by
  unfold State.modTwin
  split
  · exact setTwin_chain _ _ _
  · exact .refl

theorem oweScan_chain (s : State) : Chain s s.oweScan := (EndMove.owe s).shelf

theorem occur_chain (k : NoticeKind) (subject : Nat) (status : NoticeStatus) (s : State) :
    Chain s (occur k subject status s) :=
  (Move.notices s _).chain

theorem setBayState_chain (b : Nat) (st : BayState) (s : State) (h : st ≠ .spinning) : Chain s (setBayState b st s) :=
  (Move.bayState s b st fun e => absurd e h).chain

theorem reply_chain (l : Nat) (f : Frame) (r : Record) (s : State) : Chain s (reply l f r s) :=
  (EndMove.placeReserved s l _).shelf

theorem reject_chain (l : Nat) (f : Frame) (r : Reject) (s : State) : Chain s (reject l f r s) := reply_chain _ _ _ _

theorem releaseReserved_chain (l n : Nat) (s : State) : Chain s (releaseReserved l n s) :=
  modLink_chain _ _ _ fun _ h => ⟨h.1, le_trans (Nat.add_le_add_left (Nat.sub_le _ _) _) h.2⟩

/-- Taking a frame reserves no more than is free, and leaves one frame fewer. -/
theorem takeHead_chain {l kind : Nat} {needs : List Byte → Nat} {s t : State} {f : Frame}
    (h : takeHead l kind needs s = some (f, t)) : Chain s t := by
  unfold takeHead at h
  split at h
  · cases h
  · rename_i g rest hin
    split at h
    · rename_i hc
      cases h
      refine (Move.link s l _ fun hb => ⟨?_, ?_⟩).chain
      · have := hb.1
        rw [hin] at this
        exact Nat.le_of_succ_le this
      · have h2 := hb.2
        have hr := hc.2.2.2
        simp only [State.canReserve, Bool.or_eq_true, beq_iff_eq, Bool.and_eq_true] at hr
        dsimp only
        rcases hr with h0 | ⟨hle, _⟩
        · omega
        · have := of_decide_eq_true hle
          unfold Link.free at this
          omega
    · cases h

/-! ### Copies -/

theorem held_giveBackChannel (c : Nat) (s : State) : ((giveBackChannel c s).channel c).held = 0 := by
  have e : (giveBackChannel c s).channel c = (s.modChannel c fun x => { x with held := 0, filled := [] }).channel c := rfl
  rw [e]
  by_cases h : c < s.channels.length
  · rw [State.modChannel, State.channel_setChannel_self _ _ _ h]
  · rw [State.modChannel, State.setChannel, List.set_eq_of_length_le (Nat.le_of_not_lt h), State.channel,
      List.getD_eq_getElem?_getD, List.getElem?_eq_none (Nat.le_of_not_lt h)]
    rfl

theorem channelFree_chain (c : Nat) (s : State) : Chain s ((giveBackChannel c s).setChannel c Channel.free) :=
  (Move.giveBackChannel s c).chain.tail (.channel _ _ _ fun _ => ⟨fun _ => rfl, (held_giveBackChannel c s).symm⟩)

theorem endCopy_chain (c : Nat) (s : State) : Chain s (endCopy c s) := by
  unfold endCopy
  dsimp only
  split
  · exact .refl
  · exact (((channelFree_chain c s).trans (occur_chain _ _ _ _)).trans (setTwin_chain _ _ _)).trans (oweScan_chain _)

theorem ringLeave_chain (b : Nat) (who : MemberKind) (s : State) : Chain s (ringLeave b who s) :=
  modBay_chain _ _ _ (fun _ => rfl) fun _ h => h
theorem ringJoin_chain (b : Nat) (m : Member) (s : State) : Chain s (ringJoin b m s) :=
  modBay_chain _ _ _ (fun _ => rfl) fun _ h => h

theorem decideCopyEnd_chain (t : Nat) (e : CopyEnd) (s : State) : Chain s (decideCopyEnd t e s) := by
  unfold decideCopyEnd
  split
  · exact .refl
  · split
    · exact .refl
    · rename_i c _
      have h : Chain s (s.modChannel c fun x => { x with endStatus := some (CopyEnd.join x.endStatus e) }) :=
        modChannel_chain _ _ _ fun _ => ⟨rfl, rfl⟩
      dsimp only
      split
      · exact h.trans (endCopy_chain _ _)
      · exact (h.trans (ringLeave_chain _ _ _)).trans (endCopy_chain _ _)
      · refine .trans (h.trans (modBay_chain _ _ _ ?_ ?_)) (endCopy_chain _ _)
        · exact fun _ => rfl
        · exact fun _ h => h
      · exact h
      · exact h
      · exact h

theorem queueChunkRead_chain (c : Nat) (s : State) : Chain s (queueChunkRead c s) := by
  unfold queueChunkRead
  split
  · exact .refl
  · dsimp only
    refine .trans (modChannel_chain _ _ _ ?_) (ringJoin_chain _ _ _)
    exact fun _ => ⟨rfl, rfl⟩

theorem removeWaitsOn_shelf (b : Nat) (reason : NodeReason) (s : State) : Chain s (removeWaitsOn b reason s) :=
  (removeWaitsOn_chain b reason s).shelf

theorem findIdx_free (cs : List Channel) (h : cs.all Channel.busy = false) :
    ((cs.getD (cs.findIdx fun c => !c.busy) Channel.free).busy) = false := by
  have hex : ∃ c ∈ cs, (!c.busy) = true := by
    rw [List.all_eq_false] at h
    obtain ⟨c, hc, hb⟩ := h
    exact ⟨c, hc, by simpa using hb⟩
  have hlt := List.findIdx_lt_length_of_exists hex
  rw [List.getD_eq_getElem _ _ hlt]
  simpa using List.findIdx_getElem (w := hlt)

theorem startCopy_chain (source target first last : Nat) (s : State) (h : s.channels.all Channel.busy = false) :
    Chain s (startCopy source target first last s) := by
  unfold startCopy
  dsimp only
  have hb : (s.channel s.freeChannel).busy = false := findIdx_free s.channels h
  refine .trans (.trans (.trans (.trans (setTwin_chain _ _ s) (Move.channel _ _ _ ?_).chain) (removeWaitsOn_shelf _ _ _))
    (oweScan_chain _)) (queueChunkRead_chain _ _)
  intro he
  exact ⟨fun hf => absurd hf (by simp), (he hb).symm⟩

theorem notAllBusy_of_copyRefusal {s : State} {a b c d : Nat} (h : s.copyRefusal a b c d = none) :
    s.channels.all Channel.busy = false := by
  by_contra hb
  rw [Bool.not_eq_false] at hb
  unfold State.copyRefusal at h
  simp only [hb, if_true] at h
  split_ifs at h

theorem hotTrigger_chain (b count : Nat) (s : State) : Chain s (hotTrigger b count s) := by
  unfold hotTrigger
  dsimp only
  split
  · split
    · exact .refl
    · split
      · exact .refl
      · exact (startCopy_chain _ _ _ _ _ (notAllBusy_of_copyRefusal ‹_›)).trans (occur_chain _ _ _ _)
  · exact .refl

theorem queueCommand_chain (b k : Nat) (ref : CommandRef) (s : State) : Chain s (queueCommand b k ref s) := by
  unfold queueCommand
  split
  · exact .refl
  · dsimp only
    refine .trans (.trans (modRecord_chain _ _ _ ?_) (modBay_chain _ _ _ ?_ ?_)) (hotTrigger_chain _ _ _)
    · exact fun _ => ⟨rfl, rfl⟩
    · exact fun _ => rfl
    · exact fun _ h => h

/-! ### Moves of loans -/

theorem carryOutMove_chain (k newBay : Nat) (newVia : Option Nat) (s : State) : Chain s (carryOutMove k newBay newVia s) := by
  unfold carryOutMove
  split
  · exact .refl
  · dsimp only
    refine .trans (.trans ?_ (oweScan_chain _)) (offerLoanNotices_chain _ _).shelf
    split
    · exact .trans (.trans (.trans (ringLeave_chain _ _ _) (setLoan_chain _ _ _ fun _ h => absurd rfl h).shelf)
        (foldl_chain _ (fun s ref => queueCommand_chain _ _ ref s) _ _)) (freeTwinIfUnnamed_chain _ _).shelf
    · exact .trans (.trans (ringLeave_chain _ _ _) (setLoan_chain _ _ _ fun _ h => absurd rfl h).shelf)
        (foldl_chain _ (fun s ref => queueCommand_chain _ _ ref s) _ _)

theorem orderMove_chain (k newBay : Nat) (newVia : Option Nat) (reason : EndReason) (s : State) :
    Chain s (orderMove k newBay newVia reason s) := by
  unfold orderMove
  split
  · exact .refl
  · split
    · exact .refl
    split
    · exact (decideEnd_chain _ _ _).shelf
    split
    · exact (setLoan_chain _ _ _ fun _ _ => not_not.mp ‹_›).shelf
    · exact carryOutMove_chain _ _ _ _

theorem clearMovesTo_chain (b : Nat) (s : State) : Chain s (clearMovesTo b s) :=
  eachSlot_chain _ (fun k s => by
    split
    · split
      · split
        · exact (decideEnd_chain _ _ _).shelf
        · exact .refl
      · exact .refl
    · exact .refl) s

theorem moveToTarget_chain (t : Nat) (w : Twin) (reason : EndReason) (s : State) : Chain s (moveToTarget t w reason s) :=
  eachSlot_chain _ (fun k s => by
    split
    · split
      · exact orderMove_chain _ _ _ _ _
      · exact .refl
    · exact .refl) s

theorem moveToSource_chain (t : Nat) (w : Twin) (reason : EndReason) (s : State) : Chain s (moveToSource t w reason s) :=
  eachSlot_chain _ (fun k s => by
    split
    · split
      · exact orderMove_chain _ _ _ _ _
      · exact .refl
    · exact .refl) s

theorem retireAndMove_chain (t : Nat) (w : Twin) (reason : EndReason) (s : State) :
    Chain s (retireAndMove t w reason s) :=
  (((modTwin_chain _ _ _).trans (oweScan_chain _)).trans (moveToSource_chain _ _ _ _)).trans
    (freeTwinIfUnnamed_chain _ _).shelf

theorem orphan_chain (t : Nat) (w : Twin) (reason : EndReason) (s : State) :
    Chain s ((moveToTarget t w reason s).modTwin t (fun w => { w with state := .orphan }) |>.oweScan) :=
  ((moveToTarget_chain _ _ _ _).trans (modTwin_chain _ _ _)).trans (oweScan_chain _)

theorem retire_chain (t : Nat) (s : State) : Chain s (freeTwinIfUnnamed t (s.modTwin t retire)) :=
  (modTwin_chain _ _ _).trans (freeTwinIfUnnamed_chain _ _).shelf

theorem twinFault_chain (b : Nat) (s : State) : Chain s (twinFault b s) := by
  unfold twinFault
  split
  · exact .refl
  · split
    · exact .refl
    · split
      · exact .refl
      split
      · exact decideCopyEnd_chain _ _ _
      · split
        · exact orphan_chain _ _ _ _
        · exact retireAndMove_chain _ _ _ _
      · split
        · exact orphan_chain _ _ _ _
        · exact retireAndMove_chain _ _ _ _
      · split
        · exact .refl
        · exact retire_chain _ _

theorem twinDrain_chain (b : Nat) (s : State) : Chain s (twinDrain b s) := by
  unfold twinDrain
  split
  · exact .refl
  · split
    · exact .refl
    · split
      · exact .refl
      split
      · exact decideCopyEnd_chain _ _ _
      · split
        · exact orphan_chain _ _ _ _
        · exact retireAndMove_chain _ _ _ _
      · split
        · exact (modTwin_chain _ _ _).trans (oweScan_chain _)
        · exact retireAndMove_chain _ _ _ _
      · split
        · exact .refl
        · exact retire_chain _ _

/-! ### Units and the ends of disk work -/

theorem issueOp_chain (b : Nat) (op : DiskOp) (s : State) : Chain s (issueOp b op s) :=
  modBay_chain _ _ _ (fun _ => rfl) fun _ h => h
theorem endService_chain (b : Nat) (s : State) : Chain s (endService b s) :=
  modBay_chain _ _ _ (fun _ => rfl) fun _ h => h
theorem weakRemove_chain (b : Nat) (p : Nat → Bool) (s : State) : Chain s (weakRemove b p s) :=
  modBay_chain _ _ _ (fun _ => rfl) fun _ h =>
    ⟨le_trans (List.length_filter_le _ _) h.1, h.2.1.sublist List.filter_sublist, h.2.2⟩

theorem startUnit_chain (b : Nat) (u : DiskUnit) (s : State) : Chain s (startUnit b u s) := by
  unfold startUnit
  have h : Chain s (s.modBay b fun x => { x with service := some u, chosen := none }) :=
    modBay_chain _ _ _ (fun _ => rfl) fun _ h => h
  dsimp only
  split
  · split
    · refine .trans (.trans h (modRecord_chain _ _ _ ?_)) (issueOp_chain _ _ _)
      exact fun _ => ⟨rfl, rfl⟩
    · exact h
  · refine .trans (.trans h (modChannel_chain _ _ _ ?_)) (issueOp_chain _ _ _)
    exact fun _ => ⟨rfl, rfl⟩
  · refine .trans (.trans h (modChannel_chain _ _ _ ?_)) (issueOp_chain _ _ _)
    exact fun _ => ⟨rfl, rfl⟩
  · exact h
  · exact h

theorem bounded_weakJoin {w : List Nat} {n : Nat} (hl : w.length ≤ Config.weak) (hd : w.Nodup) (hn : n ∉ w) :
    ((if w.length < Config.weak then w else w.drop 1) ++ [n]).length ≤ Config.weak ∧
      ((if w.length < Config.weak then w else w.drop 1) ++ [n]).Nodup := by
  have sub : (if w.length < Config.weak then w else w.drop 1).Sublist w := by
    split
    · exact List.Sublist.refl _
    · exact List.drop_sublist 1 w
  refine ⟨?_, ?_⟩
  · split
    · simp only [List.length_append, List.length_singleton]; omega
    · simp only [List.length_append, List.length_drop, List.length_singleton]
      have : 1 ≤ Config.weak := by decide
      omega
  · rw [List.nodup_append]
    refine ⟨hd.sublist sub, List.nodup_singleton n, fun a ha b hb e => ?_⟩
    rw [List.mem_singleton] at hb
    exact hn (hb ▸ e ▸ sub.subset ha)

theorem weakJoin_chain (b n : Nat) (s : State) : Chain s (weakJoin b n s) := by
  unfold weakJoin
  dsimp only
  split
  · exact .refl
  · rename_i hc
    have hn : n ∉ (s.bay b).weak := by simpa using hc
    have h : Chain s (occur .weak b .none (s.modBay b fun x =>
        { x with weak := (if (s.bay b).weak.length < Config.weak then (s.bay b).weak else (s.bay b).weak.drop 1) ++ [n] })) := by
      refine .trans (Move.bay s b _ ?_ ?_).chain (occur_chain _ _ _ _)
      · rfl
      · intro hb
        have := bounded_weakJoin hb.1 hb.2.1 hn
        exact ⟨this.1, this.2, hb.2.2⟩
    exact Chain.ite (fun _ => h.trans (occur_chain _ _ _ _)) fun _ => h

theorem endReading_chain (ref : CommandRef) (st : Option Status) (s : State) : Chain s (endReading ref st s) := by
  unfold endReading
  split
  · exact .refl
  · split
    · exact (freeRecord_chain _ _).shelf
    · dsimp only
      refine .trans (.trans (EndMove.giveBack _ _ _).shelf (modRecord_chain _ _ _ ?_)) (settleRead_chain _ _).shelf
      exact fun _ => ⟨rfl, rfl⟩

theorem endWriting_chain (ref : CommandRef) (st : Status) (s : State) : Chain s (endWriting ref st s) := by
  unfold endWriting
  split
  · exact .refl
  · exact (endDone_chain _ _ _ _).shelf

theorem faultCommand_chain (ref : CommandRef) (s : State) : Chain s (faultCommand ref s) := by
  unfold faultCommand
  split
  · exact .refl
  · split
    · exact endWriting_chain _ _ _
    · split
      · exact (endDone_chain _ _ _ _).shelf
      · exact endReading_chain _ _ _
    · rename_i r _ _
      have h : Chain s (s.modRecord ref fun r => { r with carry := r.count - r.done }) :=
        modRecord_chain _ _ _ fun _ => ⟨rfl, rfl⟩
      dsimp only
      split
      · split
        · exact h.trans (freeRecord_chain _ _).shelf
        · refine h.trans (modRecord_chain _ _ _ ?_)
          exact fun _ => ⟨rfl, rfl⟩
      · exact h.trans (endReading_chain _ _ _)

theorem faultUnit_chain (u : DiskUnit) (s : State) : Chain s (faultUnit u s) := by
  unfold faultUnit
  split
  · exact faultCommand_chain _ _
  · exact modChannel_chain _ _ _ fun _ => ⟨rfl, rfl⟩
  · exact modChannel_chain _ _ _ fun _ => ⟨rfl, rfl⟩
  · exact .refl
  · exact .refl

theorem leavePool_chain (w : WaiterKind) (s : State) : Chain s (leavePool w s) := (Move.poolWait s _).chain

theorem clearArbiter_bounded (x : Bay) (h : x.bounded) : x.clearArbiter.bounded := ⟨h.1, h.2.1, Nat.zero_le _⟩
theorem emptied_bounded (x : Bay) (c : Option FaultCause) (h : x.bounded) : (x.emptied c).bounded :=
  ⟨Nat.zero_le _, List.nodup_nil, h.2.2⟩

/-! ### Faults, spin-up, release and drain -/

theorem faultHandling_chain (b : Nat) (cause : FaultCause) (s : State) : Chain s (faultHandling b cause s) := by
  unfold faultHandling
  dsimp only
  refine .trans (.trans (.trans (.trans (.trans (.trans (.trans (.trans (.trans (.trans (.trans
    (modBay_chain b _ s ?_ ?_) (setBayState_chain _ _ _ ?_)) (modBay_chain b _ _ ?_ ?_))
    (foldl_chain _ ?_ _ _)) (clearMovesTo_chain _ _)) (twinFault_chain _ _))
    (eachSlot_chain _ ?_ _)) (eachSlot_chain _ ?_ _)) (removeWaitsOn_shelf _ _ _))
    (modBay_chain b _ _ ?_ ?_)) (leavePool_chain _ _)) (oweScan_chain _)
  · intro x; split <;> rfl
  · intro x h; split
    · exact emptied_bounded _ _ h
    · exact h
  · split <;> simp
  · exact fun _ => rfl
  · exact fun _ h => h
  · intro s u
    split
    · exact faultUnit_chain _ _
    · exact .refl
  · intro k s
    split
    · split
      · split
        · split
          · exact carryOutMove_chain _ _ _ _
          · exact (decideEnd_chain _ _ _).shelf
        · exact .refl
      · exact .refl
    · exact .refl
  · intro k s
    split
    · split
      · exact (decideEnd_chain _ _ _).shelf
      · exact .refl
    · exact .refl
  · exact fun _ => rfl
  · exact clearArbiter_bounded

theorem enterSpinWait_chain (b : Nat) (s : State) : Chain s (enterSpinWait b s) := by
  refine .trans (.trans (modBay_chain b _ s ?_ ?_) (setBayState_chain _ _ _ (by simp))) (Move.spinQueue _ _).chain
  · exact fun _ => rfl
  · exact fun _ h => h

theorem leaveSpinQueue_chain (b : Nat) (s : State) : Chain s (leaveSpinQueue b s) := (Move.spinQueue s _).chain

theorem enterStopping_chain (b : Nat) (s : State) : Chain s (enterStopping b s) := by
  refine .trans (.trans (modBay_chain b _ s ?_ ?_) (setBayState_chain _ _ _ (by simp))) (issueOp_chain _ _ _)
  · exact fun _ => rfl
  · exact fun x h => clearArbiter_bounded x h

theorem enterReleased_chain (b : Nat) (s : State) : Chain s (enterReleased b s) := by
  refine .trans (modBay_chain b _ s ?_ ?_) (setBayState_chain _ _ _ (by simp))
  · exact fun _ => rfl
  · exact fun x h => h

theorem drainTest_chain (b : Nat) (s : State) : Chain s (drainTest b s) := by
  unfold drainTest
  split
  · exact enterStopping_chain _ _
  · exact .refl

theorem drainHandling_chain (b : Nat) (s : State) : Chain s (drainHandling b s) := by
  unfold drainHandling
  dsimp only
  refine .trans (.trans (.trans (.trans (.trans (.trans (setBayState_chain b _ s (by simp)) (removeWaitsOn_shelf _ _ _))
    (clearMovesTo_chain _ _)) (twinDrain_chain _ _)) (eachSlot_chain _ ?_ _)) (oweScan_chain _)) (drainTest_chain _ _)
  intro k s
  split
  · split
    · exact (decideEnd_chain _ _ _).shelf
    · exact .refl
  · exact .refl

theorem spinFault_chain (b : Nat) (cause : FaultCause) (s : State) : Chain s (spinFault b cause s) := by
  refine .trans (.trans (.trans (modBay_chain b _ s ?_ ?_) (setBayState_chain _ _ _ (by simp)))
    (removeWaitsOn_shelf _ _ _)) (oweScan_chain _)
  · exact fun _ => rfl
  · exact fun x h => h

theorem releaseBay_chain (b : Nat) (s : State) : Chain s (releaseBay b s) := by
  unfold releaseBay
  split
  · exact (((leaveSpinQueue_chain _ _).trans (enterReleased_chain _ _)).trans (removeWaitsOn_shelf _ _ _)).trans
      (oweScan_chain _)
  · exact ((enterStopping_chain _ _).trans (removeWaitsOn_shelf _ _ _)).trans (oweScan_chain _)
  · exact drainHandling_chain _ _
  · exact .refl

end Sys2Proof.Machine
end

