-- ==== Sys2Proof/Laws/Commands.lean ====
section
/-! SUPPORT. Every command but the resets is a chain of moves. -/

namespace Sys2Proof.Machine

/-- If the outcome is a next state, a chain of moves leads to it. -/
def ChainsTo (s : State) (r : Result) : Prop := ∀ t, r = .next t → Chain s t

theorem ChainsTo.next {s t : State} (h : Chain s t) : ChainsTo s (.next t) := by
  intro u e; cases e; exact h
theorem ChainsTo.refused (s : State) (r : Refusal) : ChainsTo s (.refused r) := by
  intro u e; cases e
theorem ChainsTo.stay (s : State) : ChainsTo s (.next s) := .next .refl

theorem ChainsTo.ite {c : Prop} [Decidable c] {s : State} {a b : Result} (ha : c → ChainsTo s a) (hb : ¬c → ChainsTo s b) :
    ChainsTo s (if c then a else b) := by
  split
  · exact ha ‹_›
  · exact hb ‹_›

theorem finish_shelf (s : State) : Chain s (finish s) := (finish_chain s).shelf

theorem taking_chain (l kind : Nat) (needs : List Byte → Nat) (act : Frame → State → State) (s : State)
    (h : ∀ f s, Chain s (act f s)) : ChainsTo s (taking l kind needs act s) := by
  unfold taking
  split
  · exact .stay s
  · exact .next (((takeHead_chain ‹_›).trans (h _ _)).trans (finish_shelf _))

theorem onNode_chain (n : Nat) (act : State → Result) (s : State) (h : ChainsTo s (act s)) : ChainsTo s (onNode n act s) :=
  .ite (fun _ => h) fun _ => .refused _ _
theorem onBay_chain (b : Nat) (act : State → Result) (s : State) (h : ChainsTo s (act s)) : ChainsTo s (onBay b act s) :=
  .ite (fun _ => h) fun _ => .refused _ _
theorem onLink_chain (l : Nat) (act : State → Result) (s : State) (h : ChainsTo s (act s)) : ChainsTo s (onLink l act s) :=
  .ite (fun _ => h) fun _ => .refused _ _

/-! ### Loans -/

theorem queueRequest_chain (n : Nat) (f : Frame) (q : BorrowBody) (cls : Cls) (range : Option Range) (reason : NodeReason)
    (s : State) (h : s.waits.length < Config.waitEntries) : Chain s (queueRequest n f q cls range reason s) := by
  unfold queueRequest
  dsimp only
  refine Chain.ite (fun _ => .trans (.trans (.trans (Move.queue s _ _ h).chain (reply_chain _ _ _ _))
    (recomputeAgainst_chain _ _).shelf) (oweScan_chain _)) fun _ => ?_
  exact .trans (.trans (Move.queue s _ _ h).chain (reply_chain _ _ _ _)) (recomputeAgainst_chain _ _).shelf

theorem decideBorrow_chain (n : Nat) (f : Frame) (q : BorrowBody) (s : State) : Chain s (decideBorrow n f q s) := by
  unfold decideBorrow
  dsimp only
  split
  · exact (reply_chain _ _ _ _).trans (releaseReserved_chain _ _ _)
  · split
    · split
      · exact (reply_chain _ _ _ _).trans (releaseReserved_chain _ _ _)
      split
      · exact (reply_chain _ _ _ _).trans (releaseReserved_chain _ _ _)
      · exact queueRequest_chain _ _ _ _ _ _ _ (Nat.lt_of_not_le ‹_›)
    · exact (makeLoan_chain _ _ _ _ _ _ _ _).shelf.trans (releaseReserved_chain _ _ _)
    · exact releaseReserved_chain _ _ _

theorem borrowAct_chain (n : Nat) (f : Frame) (s : State) : Chain s (borrowAct n f s) := by
  unfold borrowAct
  split
  · exact (reject_chain _ _ _ _).trans (releaseReserved_chain _ _ _)
  · split
    · exact (reject_chain _ _ _ _).trans (releaseReserved_chain _ _ _)
    · exact decideBorrow_chain _ _ _ _

theorem withdrawAct_chain (n : Nat) (f : Frame) (s : State) : Chain s (withdrawAct n f s) := by
  unfold withdrawAct
  refine Chain.ite (fun _ => reject_chain _ _ _ _) fun _ => Chain.ite (fun _ => reject_chain _ _ _ _) fun _ => ?_
  exact Chain.ite (fun _ => (releaseReserved_chain _ _ _).trans (removeWaits_chain _ _ _).shelf)
    fun _ => reject_chain _ _ _ _

theorem loan_of_matchLoan {s : State} {n : Option Nat} {id : LoanId} {l : Loan} (h : s.matchLoan n id = some l) :
    s.loan id.slot = some l := by
  unfold State.matchLoan at h
  split at h
  · cases h
  · rename_i x hx
    split_ifs at h
    cases n with
    | none => exact hx.trans h
    | some n =>
      dsimp only at h
      split_ifs at h
      exact hx.trans h

theorem returnMatched_chain (n : Nat) (f : Frame) (id : LoanId) (l : Loan) (s : State) (h : s.loan id.slot = some l) :
    Chain s (returnMatched n f id l s) := by
  have keep : Chain s (s.setLoan id.slot { l with returnTag := some f.tag }) := by
    refine (setLoan_keep _ h ?_ ?_).shelf <;> rfl
  unfold returnMatched
  dsimp only
  split
  · exact keep.trans (decideEnd_chain _ _ _).shelf
  · exact (reply_chain _ _ _ _).trans (freeSlot_chain _ _).shelf
  · exact Chain.ite (fun _ => keep) fun _ => reply_chain _ _ _ _
  · exact Chain.ite (fun _ => keep) fun _ => reply_chain _ _ _ _

theorem returnAct_chain (n : Nat) (f : Frame) (s : State) : Chain s (returnAct n f s) := by
  unfold returnAct
  dsimp only
  refine Chain.ite (fun _ => reject_chain _ _ _ _) fun _ => Chain.ite (fun _ => reject_chain _ _ _ _) fun _ =>
    Chain.ite (fun _ => reject_chain _ _ _ _) fun _ => ?_
  split
  · exact reply_chain _ _ _ _
  · exact returnMatched_chain _ _ _ _ _ (loan_of_matchLoan ‹_›)

theorem holdAct_chain (n : Nat) (f : Frame) (s : State) : Chain s (holdAct n f s) := by
  unfold holdAct
  dsimp only
  refine Chain.ite (fun _ => reject_chain _ _ _ _) fun _ => Chain.ite (fun _ => reject_chain _ _ _ _) fun _ => ?_
  split
  · exact reply_chain _ _ _ _
  · rename_i l h
    have keep : Chain s (s.setLoan (loanIdAt f.body 0).slot { l with idle := 0 }) := by
      refine (setLoan_keep _ (loan_of_matchLoan h) ?_ ?_).shelf <;> rfl
    exact Chain.ite (fun _ => keep.trans (reply_chain _ _ _ _)) fun _ => reply_chain _ _ _ _

theorem queryAct_chain (n : Nat) (f : Frame) (s : State) : Chain s (queryAct n f s) := by
  unfold queryAct
  exact Chain.ite (fun _ => reject_chain _ _ _ _) fun _ => reply_chain _ _ _ _

/-! ### Block commands -/

theorem makeRecord_chain (r : Command) (s : State) (h : r.held = 0) : Chain s (makeRecord r s) := by
  unfold makeRecord
  dsimp only
  split
  · refine (Move.record s r h).chain.trans (setLoan_keep _ ‹_› ?_ ?_).shelf <;> rfl
  · exact (Move.record s r h).chain

theorem queueOnPlacedBay_chain (r : Command) (s : State) : Chain s (queueOnPlacedBay r s) := by
  unfold queueOnPlacedBay
  split
  · exact queueCommand_chain _ _ _ _
  · exact .refl

theorem readAct_chain (n : Nat) (f : Frame) (s : State) : Chain s (readAct n f s) := by
  unfold readAct
  split
  · exact reject_chain _ _ _ _
  split
  · exact reject_chain _ _ _ _
  split
  · exact reply_chain _ _ _ _
  · exact (makeRecord_chain _ _ rfl).trans (queueOnPlacedBay_chain _ _)

theorem streamAct_chain (n : Nat) (f : Frame) (s : State) : Chain s (streamAct n f s) := by
  unfold streamAct
  split
  · exact reject_chain _ _ _ _
  split
  · exact reject_chain _ _ _ _
  split
  · exact reply_chain _ _ _ _
  · refine (makeRecord_chain _ _ ?_).trans (queueOnPlacedBay_chain _ _)
    rfl

theorem popHead_chain (l : Nat) (s : State) : Chain s (popHead l s) :=
  modLink_chain _ _ _ fun x h => ⟨by
    have := h.1
    rw [List.length_tail]; omega, h.2⟩

theorem acceptWrite_chain (n : Nat) (f : Frame) (q : BlocksBody) (s : State) : Chain s (acceptWrite n f q s) := by
  unfold acceptWrite
  refine .trans (makeRecord_chain _ _ ?_) (Move.lend _ _ _).chain
  rfl

theorem writeAct_chain (n : Nat) (f : Frame) (s : State) : Chain s (writeAct n f s) := by
  unfold writeAct
  split
  · exact (popHead_chain _ _).trans (reject_chain _ _ _ _)
  split
  · exact (popHead_chain _ _).trans (reject_chain _ _ _ _)
  split
  · exact (popHead_chain _ _).trans (reply_chain _ _ _ _)
  · refine Chain.ite (fun _ => (popHead_chain _ _).trans (acceptWrite_chain _ _ _ _)) fun _ => ?_
    refine .trans (modLink_chain n _ s ?_) (Move.poolWait _ _).chain
    exact fun _ h => h

theorem execWrite_chain (n : Nat) (s : State) : ChainsTo s (execWrite n s) := by
  refine onNode_chain _ _ _ ?_
  split
  · exact .stay s
  · rename_i f hw
    refine .next (.trans (.trans (Move.link s n _ ?_).chain (writeAct_chain _ _ _)) (finish_shelf _))
    intro hb
    refine ⟨hb.1, ?_⟩
    unfold State.writeAtHead at hw
    split at hw
    · cases hw
    · split at hw
      · rename_i hc
        have hr := hc.2.2.2
        simp only [State.canReserve, Bool.or_eq_true, beq_iff_eq, Bool.and_eq_true] at hr
        have h2 := hb.2
        dsimp only
        rcases hr with h0 | ⟨hle, _⟩
        · omega
        · have := of_decide_eq_true hle
          unfold Link.free at this
          omega
      · cases hw

theorem recheckWrite_chain (n : Nat) (s : State) : Chain s (recheckWrite n s) := by
  unfold recheckWrite
  split
  · exact .refl
  · dsimp only
    refine Chain.ite (fun _ => (popHead_chain _ _).trans (reject_chain _ _ _ _)) fun _ => ?_
    split
    · exact (popHead_chain _ _).trans (reject_chain _ _ _ _)
    split
    · exact (popHead_chain _ _).trans (reply_chain _ _ _ _)
    · exact (popHead_chain _ _).trans (acceptWrite_chain _ _ _ _)

theorem gather_chain (r : Command) (f : Frame) (s : State) (h : s.record r.ref = some r) : Chain s (gather r f s) := by
  unfold gather
  refine Chain.ite (fun _ => ?_) fun _ => (endDone_chain _ _ _ _).shelf
  dsimp only
  refine Chain.ite (fun _ => .trans (EndMove.mark s r.ref _ ?_).shelf (queueOnPlacedBay_chain _ _)) fun _ =>
    (EndMove.mark s r.ref _ ?_).shelf
  all_goals
    intro x hx
    rw [h] at hx
    cases hx
    exact ⟨rfl, rfl⟩

theorem record_self {s : State} {ref : CommandRef} {r : Command} (h : s.record ref = some r) : s.record r.ref = some r := by
  rw [State.ref_of_record h]; exact h

theorem dataAct_chain (n : Nat) (f : Frame) (s : State) : Chain s (dataAct n f s) := by
  unfold dataAct
  split
  · exact .refl
  · exact Chain.ite (fun _ => gather_chain _ _ _ (record_self ‹_›)) fun _ => .refl

theorem cancelRecord_chain (r : Command) (s : State) : Chain s (cancelRecord r s) := by
  unfold cancelRecord
  dsimp only
  split
  · exact (ringDrop_chain _ _ _).shelf.trans (endStream_chain _ _ _).shelf
  · exact (ringDrop_chain _ _ _).shelf.trans (endDone_chain _ _ _ _).shelf
  · exact (endDone_chain _ _ _ _).shelf
  · refine Chain.ite (fun _ => .refl) fun _ => modRecord_chain _ _ _ ?_
    exact fun _ => ⟨rfl, rfl⟩
  · exact .refl

theorem cancelAct_chain (n : Nat) (f : Frame) (s : State) : Chain s (cancelAct n f s) := by
  unfold cancelAct
  split
  · exact cancelRecord_chain _ _
  · exact reject_chain _ _ _ _

/-! ### Disks -/

theorem becomeReady_chain (b capacity : Nat) (s : State) : Chain s (becomeReady b capacity s) := by
  refine .trans (.trans (modBay_chain b _ s ?_ ?_) (setBayState_chain _ _ _ (by simp))) (oweScan_chain _)
  · exact fun _ => rfl
  · exact fun x h => ⟨le_trans (List.length_filter_le _ _) h.1, h.2.1.sublist List.filter_sublist, Nat.zero_le _⟩

theorem badIdentify_chain (b : Nat) (s : State) : Chain s (badIdentify b s) := by
  refine .trans (modBay_chain b _ s ?_ ?_) (spinFault_chain _ _ _)
  · exact fun _ => rfl
  · exact fun _ h => h

theorem deliver_chain (ref : CommandRef) (w : WaitingData) (s : State) : Chain s (deliver ref w s) := by
  unfold deliver
  split
  · exact .refl
  · refine Chain.ite (fun _ => (EndMove.giveBack _ _ _).shelf) fun _ => Chain.ite
      (fun _ => .trans (EndMove.place _ _ _).shelf (countDelivered_chain _ _).shelf) fun _ => modLink_chain _ _ _ ?_
    exact fun _ h => h

theorem readBlockOk_chain (b : Nat) (ref : CommandRef) (data : Block) (s : State) : Chain s (readBlockOk b ref data s) := by
  unfold readBlockOk
  split
  · exact endService_chain _ _
  · dsimp only
    rename_i r _
    have h (w : WaitingData) :
        Chain s (deliver ref w (s.modRecord ref fun r => { r with done := r.done + 1 })) := by
      refine .trans (modRecord_chain _ _ _ ?_) (deliver_chain _ _ _)
      exact fun _ => ⟨rfl, rfl⟩
    exact Chain.ite (fun _ => ((h _).trans (endService_chain _ _)).trans (endReading_chain _ _ _)) fun _ =>
      Chain.ite (fun _ => ((h _).trans (endService_chain _ _)).trans (endReading_chain _ _ _)) fun _ =>
        (h _).trans (issueOp_chain _ _ _)

theorem phase_chain (c : Nat) (p : Phase) (s : State) : Chain s (s.modChannel c fun x => { x with phase := p }) :=
  modChannel_chain _ _ _ fun _ => ⟨rfl, rfl⟩

theorem chunkReadOk_chain (b c : Nat) (data : Block) (s : State) : Chain s (chunkReadOk b c data s) := by
  unfold chunkReadOk
  dsimp only
  have h (filled : List Block) : Chain s (s.modChannel c fun x => { x with filled := filled }) :=
    modChannel_chain _ _ _ fun _ => ⟨rfl, rfl⟩
  refine Chain.ite (fun _ => ?_) fun _ => Chain.ite
    (fun _ => ((h _).trans (phase_chain _ _ _)).trans (endService_chain _ _)) fun _ => (h _).trans (issueOp_chain _ _ _)
  split
  · refine .trans (((h _).trans (endService_chain _ _)).trans (phase_chain _ _ _)) (modBay_chain _ _ _ ?_ ?_)
    · exact fun _ => rfl
    · exact fun _ h => h
  · exact ((h _).trans (endService_chain _ _)).trans (phase_chain _ _ _)

theorem chunkMediaError_chain (b c : Nat) (s : State) : Chain s (chunkMediaError b c s) := by
  refine .trans (modChannel_chain c _ s ?_) (endService_chain _ _)
  exact fun _ => ⟨rfl, rfl⟩

theorem readAnswered_chain (b n : Nat) (outcome : ReadOutcome) (s : State) : Chain s (readAnswered b n outcome s) := by
  have h : Chain s (s.modBay b fun x => { x.opOver with head := n + 1 }) :=
    modBay_chain _ _ _ (fun _ => rfl) fun _ h => h
  unfold readAnswered
  dsimp only
  split
  · split
    · exact h.trans (readBlockOk_chain _ _ _ _)
    · exact h.trans (chunkReadOk_chain _ _ _ _)
    · exact h.trans (endService_chain _ _)
  · have h := h.trans (weakJoin_chain b n _)
    split
    · exact (h.trans (endService_chain _ _)).trans (endReading_chain _ _ _)
    · exact h.trans (chunkMediaError_chain _ _ _)
    · exact h.trans (endService_chain _ _)

theorem writeBlockOk_chain (b : Nat) (ref : CommandRef) (s : State) : Chain s (writeBlockOk b ref s) := by
  unfold writeBlockOk
  split
  · exact endService_chain _ _
  · rename_i r hr
    dsimp only
    have h : Chain s (s.modRecord ref fun _ => { r with done := r.done + 1 }) := by
      refine (EndMove.mark s ref _ ?_).shelf
      intro x hx
      rw [hr] at hx
      cases hx
      exact ⟨rfl, rfl⟩
    exact Chain.ite (fun _ => (h.trans (endService_chain _ _)).trans (endWriting_chain _ _ _)) fun _ =>
      Chain.ite (fun _ => (h.trans (endService_chain _ _)).trans (endWriting_chain _ _ _)) fun _ =>
        h.trans (issueOp_chain _ _ _)

theorem channel_setTwin (t c : Nat) (x : Option Twin) (s : State) : (s.setTwin t x).channel c = s.channel c := rfl

theorem channel_modTwin (t c : Nat) (f : Twin → Twin) (s : State) : (s.modTwin t f).channel c = s.channel c := by
  unfold State.modTwin; split <;> rfl

theorem held_modChannel (c : Nat) (f : Channel → Channel) (s : State) (h : ∀ x, (f x).held = x.held) :
    ((s.modChannel c f).channel c).held = (s.channel c).held := by
  by_cases hl : c < s.channels.length
  · rw [State.modChannel, State.channel_setChannel_self _ _ _ hl, h]
  · rw [State.modChannel, State.setChannel, List.set_eq_of_length_le (Nat.le_of_not_lt hl)]

theorem chunkWritten_chain (c : Nat) (s : State) : Chain s (chunkWritten c s) := by
  unfold chunkWritten
  dsimp only
  have h := ((Move.giveBackChannel s c).chain.trans (modTwin_chain (s.channel c).twin
    (fun w => { w with next := w.next + (s.channel c).chunkCount }) _)).trans (phase_chain c .none _)
  split
  · refine Chain.ite (fun _ => ?_) fun _ => h.trans (queueChunkRead_chain _ _)
    refine .trans (.trans (.trans (h.trans (setTwin_chain _ _ _)) (Move.channel _ _ _ ?_).chain) (occur_chain _ _ _ _))
      (oweScan_chain _)
    refine fun _ => ⟨fun _ => rfl, ?_⟩
    rw [channel_setTwin, held_modChannel c (fun x => { x with phase := .none }) _ fun _ => rfl, channel_modTwin,
      held_giveBackChannel]
    rfl
  · exact h

theorem chunkWriteOk_chain (b c n : Nat) (s : State) : Chain s (chunkWriteOk b c n s) := by
  unfold chunkWriteOk
  dsimp only
  exact Chain.ite (fun _ => (endService_chain _ _).trans (chunkWritten_chain _ _)) fun _ => Chain.ite
    (fun _ => (phase_chain _ _ _).trans (endService_chain _ _)) fun _ => issueOp_chain _ _ _

theorem writeAnswered_chain (b n : Nat) (outcome : WriteOutcome) (s : State) : Chain s (writeAnswered b n outcome s) := by
  have h : Chain s (s.modBay b fun x => { x.opOver with head := n + 1 }) :=
    modBay_chain _ _ _ (fun _ => rfl) fun _ h => h
  unfold writeAnswered
  dsimp only
  split
  · have h := h.trans (weakRemove_chain b (fun m => m == n) _)
    split
    · exact h.trans (writeBlockOk_chain _ _ _)
    · exact h.trans (chunkWriteOk_chain _ _ _ _)
    · exact h.trans (endService_chain _ _)
  · have h := h.trans (weakJoin_chain b n _)
    split
    · exact (h.trans (endService_chain _ _)).trans (endWriting_chain _ _ _)
    · exact h.trans (chunkMediaError_chain _ _ _)
    · exact h.trans (endService_chain _ _)

theorem verifyAnswered_chain (b first count : Nat) (outcome : VerifyOutcome) (s : State) :
    Chain s (verifyAnswered b first count outcome s) := by
  unfold verifyAnswered
  dsimp only
  cases outcome with
  | ok =>
    refine .trans (weakRemove_chain b _ s) (modBay_chain _ _ _ ?_ ?_)
    · exact fun _ => rfl
    · exact fun _ h => h
  | mediaError n =>
    refine .trans (.trans (weakRemove_chain b _ s) (weakJoin_chain _ _ _)) (modBay_chain _ _ _ ?_ ?_)
    · exact fun _ => rfl
    · exact fun _ h => h

/-! ### The arbiter and the follow-on steps -/

theorem dispatchUnit_chain (b : Nat) (u : DiskUnit) (s : State) : Chain s (dispatchUnit b u s) := by
  unfold dispatchUnit
  dsimp only
  split
  · split
    · refine Chain.ite (fun _ => startUnit_chain _ _ _) fun _ => Chain.ite
        (fun _ => (Move.lend _ _ _).chain.trans (startUnit_chain _ _ _)) fun _ => ?_
      refine .trans (.trans (modRecord_chain _ _ _ ?_) (modBay_chain _ _ _ ?_ ?_)) (Move.poolWait _ _).chain
      · exact fun _ => ⟨rfl, rfl⟩
      · exact fun _ => rfl
      · exact fun _ h => h
    · exact .refl
  · refine Chain.ite (fun _ => (Move.lendChannel _ _ _).chain.trans (startUnit_chain _ _ _)) fun _ => ?_
    refine .trans (.trans (phase_chain _ _ _) (modBay_chain _ _ _ ?_ ?_)) (Move.poolWait _ _).chain
    · exact fun _ => rfl
    · exact fun _ h => h
  · exact startUnit_chain _ _ _

theorem dispatchVerify_chain (b : Nat) (s : State) : Chain s (dispatchVerify b s) := by
  refine .trans (modBay_chain b _ s ?_ ?_) (issueOp_chain _ _ _)
  · exact fun _ => rfl
  · exact fun _ h => ⟨h.1, h.2.1, Nat.zero_le _⟩

theorem dispatch_chain (b : Nat) (s : State) : Chain s (dispatch b s) := by
  unfold dispatch
  refine Chain.ite (fun _ => dispatchVerify_chain _ _) fun _ => ?_
  have h : Chain s (if (s.bay b).defers then s.modBay b fun x => { x with deferral := x.deferral + 1 } else s) := by
    refine Chain.ite (fun hd => (Move.bay s b _ ?_ ?_).chain) fun _ => .refl
    · rfl
    · simp only [Bay.defers, Bool.and_eq_true, decide_eq_true_eq] at hd
      exact fun hb => ⟨hb.1, hb.2.1, hd.2⟩
  dsimp only
  generalize (if (s.bay b).defers then s.modBay b fun x => { x with deferral := x.deferral + 1 } else s) = u at h ⊢
  split
  · refine .trans (.trans h (modBay_chain _ _ _ ?_ ?_)) (startUnit_chain _ _ _)
    · exact fun _ => rfl
    · exact fun _ h => h
  · split
    · refine .trans (.trans h (modBay_chain _ _ _ ?_ ?_)) (dispatchUnit_chain _ _ _)
      · exact fun _ => rfl
      · exact fun _ h => h
    · exact h

theorem serveBay_chain (b n : Nat) (s : State) : Chain s (serveBay b n s) := by
  unfold serveBay
  split
  · exact (Move.lend _ _ _).chain.trans (startUnit_chain _ _ _)
  · exact (Move.lendChannel _ _ _).chain.trans (startUnit_chain _ _ _)
  · exact .refl

theorem servePool_chain (fuel : Nat) (s : State) : Chain s (servePool fuel s) := by
  induction fuel generalizing s with
  | zero => exact .refl
  | succ fuel ih =>
    unfold servePool
    split
    · exact .refl
    · refine Chain.ite (fun _ => .refl) fun _ => ?_
      dsimp only
      split
      · exact ((Move.poolWait s _).chain.trans (serveBay_chain _ _ _)).trans (ih _)
      · exact ((Move.poolWait s _).chain.trans (recheckWrite_chain _ _)).trans (ih _)

theorem placeWaiting_chain (n : Nat) (s : State) : Chain s (placeWaiting n s) := by
  unfold placeWaiting
  split
  · exact .refl
  · dsimp only
    refine .trans (.trans (.trans (modLink_chain _ _ _ ?_) (EndMove.place _ _ _).shelf) (countDelivered_chain _ _).shelf)
      (settleRead_chain _ _).shelf
    exact fun _ h => h

theorem placeNotice_chain (k : NoticeKind) (s : State) : Chain s (placeNotice k s) :=
  (EndMove.place _ _ _).shelf.trans (Move.notices _ _).chain

theorem admitBay_chain (b : Nat) (s : State) (h : s.spinningCount < s.settings.spinGroup) : Chain s (admitBay b s) := by
  refine .trans (.trans (Move.bayState s b .spinning fun _ => h).chain (issueOp_chain _ _ _)) (modBay_chain _ _ _ ?_ ?_)
  · exact fun _ => rfl
  · exact fun _ h => h

theorem admitFrom_chain (q : List Nat) (s : State) : Chain s (admitFrom q s) := by
  induction q generalizing s with
  | nil => exact .refl
  | cons b rest ih =>
    unfold admitFrom
    refine Chain.ite (fun h => ?_) fun _ => .refl
    exact ((Move.spinQueue s rest).chain.trans (admitBay_chain b _ h)).trans (ih _)

theorem nextSegment_chain (r : Command) (count : Nat) (s : State) : Chain s (nextSegment r count s) := by
  unfold nextSegment
  refine .trans (modRecord_chain _ _ _ ?_) (queueOnPlacedBay_chain _ _)
  exact fun _ => ⟨rfl, rfl⟩

theorem boundary_chain (r : Command) (s : State) : Chain s (boundary r s) := by
  unfold boundary
  refine Chain.ite (fun _ => (endStream_chain _ _ _).shelf) fun _ => ?_
  split
  · exact (endStream_chain _ _ _).shelf
  · exact Chain.ite (fun _ => nextSegment_chain _ _ _) fun _ => Chain.ite (fun _ => (endStream_chain _ _ _).shelf)
      fun _ => nextSegment_chain _ _ _

theorem carryOutHeld_chain (k : Nat) (m : HeldMove) (s : State) : Chain s (carryOutHeld k m s) := by
  unfold carryOutHeld
  exact Chain.ite (fun _ => carryOutMove_chain _ _ _ _) fun _ => (decideEnd_chain _ _ _).shelf

/-! ### Links -/

theorem enter_bounded (fs : List Frame) (x : Link) (h : x.bounded) : (fs.foldl Link.enter x).bounded := by
  induction fs generalizing x with
  | nil => exact h
  | cons f fs ih =>
    refine ih _ ?_
    unfold Link.enter
    split
    · refine ⟨?_, h.2⟩
      simp only [List.length_append, List.length_singleton]
      omega
    · exact h

theorem receive_bounded (x : Link) (bytes : List Byte) (h : x.bounded) : (x.receive bytes).bounded := by
  unfold Link.receive
  split
  · exact enter_bounded _ _ h
  · exact h

theorem dataSent_chain (o : Option CommandRef) (s : State) : Chain s (dataSent o s) := by
  unfold dataSent
  split
  · exact (EndMove.giveBack _ _ _).shelf.trans (freeIfDone_chain _ _).shelf
  · exact .refl

theorem recordSent_chain (l : Nat) (farReady : Bool) (s : State) : Chain s (recordSent l farReady s) := by
  unfold recordSent
  split
  · exact .refl
  · rename_i o rest hp
    refine .trans (Move.link s l _ ?_).chain (dataSent_chain _ _)
    intro hb
    refine ⟨hb.1, ?_⟩
    have := hb.2
    rw [hp, List.length_cons] at this
    dsimp only
    omega

theorem lose_bounded (x : Link) : x.lose.bounded := ⟨Nat.zero_le _, Nat.zero_le _⟩

theorem endNode_chain (n : Nat) (s : State) : Chain s (endNode n s) := by
  refine .trans (.trans (removeWaits_chain _ _ _).shelf (eachSlot_chain _ ?_ _)) (oweScan_chain _)
  intro k s
  split
  · exact Chain.ite (fun _ => (decideEnd_chain _ _ _).shelf) fun _ => .refl
  · exact .refl

theorem linkLost_chain (n : Nat) (s : State) : Chain s (linkLost n s) := by
  unfold linkLost
  exact .trans (.trans (.trans (Move.link s n _ fun _ => lose_bounded _).chain
    (foldl_chain _ (fun s ref => (EndMove.giveBack s ref 1).shelf) _ _)) (leavePool_chain _ _)) (endNode_chain _ _)

theorem dropSaveTag_chain (s : State) : Chain s (dropSaveTag s) := (Move.store s s.store _).chain

/-! ### Bays -/

theorem seated_chain (b : Nat) (s : State) : Chain s (seated b s) := by
  unfold seated
  refine Chain.ite (fun _ => enterSpinWait_chain _ _) fun _ => modBay_chain _ _ _ ?_ ?_
  · exact fun _ => rfl
  · exact fun _ h => h

theorem enterEmpty_chain (b : Nat) (s : State) : Chain s (enterEmpty b s) := by
  refine .trans (modBay_chain b _ s ?_ ?_) (setBayState_chain _ _ _ (by simp))
  · exact fun _ => rfl
  · exact fun x h => emptied_bounded x none h

theorem pulledAwaited_chain (b : Nat) (s : State) : Chain s (pulledAwaited b s) :=
  .trans (.trans (enterEmpty_chain _ _) (removeWaitsOn_shelf _ _ _)) (oweScan_chain _)

theorem pulled_chain (b : Nat) (s : State) : Chain s (pulled b s) := by
  unfold pulled
  split
  · exact .refl
  · exact faultHandling_chain _ _ _
  · exact faultHandling_chain _ _ _
  · exact .trans (leaveSpinQueue_chain _ _) (pulledAwaited_chain _ _)
  · exact pulledAwaited_chain _ _
  all_goals exact enterEmpty_chain _ _

/-! ### The supervisor -/

theorem supervised_chain (kind : Nat) (act : Frame → State → State) (s : State) (h : ∀ f s, Chain s (act f s)) :
    ChainsTo s (supervised kind act s) :=
  taking_chain _ _ _ _ _ fun _ _ => Chain.ite (fun _ => reject_chain _ _ _ _) fun _ => h _ _

theorem formed_chain {α : Type} (form : List Byte → Form α) (act : Frame → α → State → State)
    (h : ∀ f a s, Chain s (act f a s)) (f : Frame) (s : State) : Chain s (formed form act f s) := by
  unfold formed
  split
  · exact reject_chain _ _ _ _
  · exact h _ _ _

theorem setBayAct_chain (f : Frame) (q : Nat × Profile) (s : State) : Chain s (setBayAct f q s) := by
  unfold setBayAct
  dsimp only
  have h : Chain s (reply 0 f (.takenSetBay q.1 q.2)
      { s with settings := { s.settings with profiles := s.settings.profiles.set q.1 q.2 } }) := by
    refine .trans (Move.settings s _ ?_ ?_ ?_).chain (reply_chain _ _ _ _)
    · exact List.length_set
    · rfl
    · exact fun h => h
  exact Chain.ite (fun _ => h) fun _ => h.trans (recomputeWhere_chain _ _).shelf

theorem setNodeAct_chain (f : Frame) (q : Nat × NodeEntry) (s : State) : Chain s (setNodeAct f q s) := by
  refine .trans (Move.settings s _ ?_ ?_ ?_).chain (reply_chain _ _ _ _)
  · rfl
  · exact List.length_set
  · exact fun h => h

theorem levelChanged_chain (s : State) : Chain s (levelChanged s) :=
  ((Move.remask s).chain.trans (recomputeWhere_chain _ _).shelf).trans (oweScan_chain _)

theorem setShelfAct_chain (f : Frame) (q : Level × Nat) (s : State) : Chain s (setShelfAct f q s) := by
  unfold setShelfAct
  dsimp only
  have h : Chain s (reply 0 f (.takenSetShelf q.1 (max q.2 s.spinningCount))
      { s with settings := { s.settings with level := q.1, spinGroup := max q.2 s.spinningCount } }) := by
    refine .trans (Move.settings s _ ?_ ?_ ?_).chain (reply_chain _ _ _ _)
    · rfl
    · rfl
    · exact fun _ => le_max_right _ _
  exact Chain.ite (fun _ => h) fun _ => h.trans (levelChanged_chain _)

theorem copyAct_chain (f : Frame) (q : CopyBody) (s : State) : Chain s (copyAct f q s) := by
  unfold copyAct
  split
  · exact reply_chain _ _ _ _
  · rename_i h
    refine (reply_chain _ _ _ _).trans (startCopy_chain _ _ _ _ _ ?_)
    rw [reply, (EndMove.placeReserved s 0 _).frame.channels]
    exact notAllBusy_of_copyRefusal h

theorem haltTwin_chain (t : Nat) (w : Twin) (s : State) : Chain s (haltTwin t w s) := by
  unfold haltTwin
  exact Chain.ite (fun _ => .refl) fun _ => decideCopyEnd_chain _ _ _

theorem haltAct_chain (f : Frame) (t : Nat) (s : State) : Chain s (haltAct f t s) := by
  unfold haltAct
  split
  · exact reply_chain _ _ _ _
  · exact Chain.ite (fun _ => (reply_chain _ _ _ _).trans (haltTwin_chain _ _ _)) fun _ => reply_chain _ _ _ _

theorem dropOrphan_chain (t : Nat) (s : State) : Chain s (dropOrphan t s) := by
  refine .trans (.trans (.trans (eachSlot_chain _ ?_ _) (eachSlot_chain _ ?_ _)) (setTwin_chain _ _ _)) (oweScan_chain _)
  · intro k s
    unfold clearMoveVia
    split
    · split
      · rename_i l h _ m hm
        refine Chain.ite (fun _ => EndChain.shelf (setLoan_chain _ _ _ fun g _ => ?_)) fun _ => .refl
        exact g l h (by simp [hm])
      · exact .refl
    · exact .refl
  · intro k s
    unfold clearVia
    split
    · rename_i l h
      have keep : Chain s (s.setLoan k { l with viaTwin := none }) := by
        refine (setLoan_keep _ h ?_ ?_).shelf <;> rfl
      exact Chain.ite (fun _ => keep.trans (recompute_chain _ _).shelf) fun _ => .refl
    · exact .refl

theorem dropAct_chain (f : Frame) (t : Nat) (s : State) : Chain s (dropAct f t s) := by
  unfold dropAct
  split
  · exact reply_chain _ _ _ _
  · refine Chain.ite (fun _ => reply_chain _ _ _ _) fun _ => ?_
    split
    · exact (reply_chain _ _ _ _).trans (haltTwin_chain _ _ _)
    · exact (reply_chain _ _ _ _).trans (dropOrphan_chain _ _)
    · exact (retireAndMove_chain _ _ _ _).trans (reply_chain _ _ _ _)
    · exact (retireAndMove_chain _ _ _ _).trans (reply_chain _ _ _ _)

theorem releaseAct_chain (f : Frame) (b : Nat) (s : State) : Chain s (releaseAct f b s) := by
  unfold releaseAct
  split
  · exact (reply_chain _ _ _ _).trans (releaseBay_chain _ _)
  · exact reply_chain _ _ _ _

theorem restoreAct_chain (f : Frame) (b : Nat) (s : State) : Chain s (restoreAct f b s) := by
  unfold restoreAct
  exact Chain.ite (fun _ => (reply_chain _ _ _ _).trans (enterSpinWait_chain _ _)) fun _ =>
    Chain.ite (fun _ => reply_chain _ _ _ _) fun _ => reply_chain _ _ _ _

theorem reclaimAct_chain (f : Frame) (id : LoanId) (s : State) : Chain s (reclaimAct f id s) := by
  unfold reclaimAct
  split
  · exact reply_chain _ _ _ _
  · exact Chain.ite (fun _ => (decideEnd_chain _ _ _).shelf.trans (reply_chain _ _ _ _)) fun _ => reply_chain _ _ _ _

theorem saveAct_chain (f : Frame) (s : State) : Chain s (saveAct f s) := by
  unfold saveAct
  exact Chain.ite (fun _ => reply_chain _ _ _ _) fun _ => (Move.store s s.store _).chain

theorem saveComplete_chain (v : Save) (s : State) : Chain s (saveComplete v s) := by
  unfold saveComplete
  dsimp only
  split
  · exact (Move.store s _ _).chain.trans (EndMove.placeReserved _ _ _).shelf
  · exact (Move.store s _ _).chain

end Sys2Proof.Machine
end

