-- ==== Sys2Proof/Laws/Exec.lean ====
section
/-! SUPPORT. What one command can do, said once: a reset, or a chain of moves. -/

namespace Sys2Proof.Machine

/-- The three resets (R188). -/
def isReset : Instr → Bool
  | .powerOn => true
  | .pinReset => true
  | .resetShelf => true
  | _ => false

/-- A command other than a reset is a chain of moves. -/
theorem exec_chain (c : Instr) (s : State) (h : isReset c = false) : ChainsTo s (exec c s) := by
  cases c with
  | borrow n =>
    show ChainsTo s (execBorrow n s)
    unfold execBorrow
    exact onNode_chain _ _ _ (taking_chain _ _ _ _ _ (borrowAct_chain n))
  | withdraw n =>
    show ChainsTo s (execWithdraw n s)
    unfold execWithdraw
    exact onNode_chain _ _ _ (taking_chain _ _ _ _ _ (withdrawAct_chain n))
  | returnLoan n =>
    show ChainsTo s (execReturn n s)
    unfold execReturn
    exact onNode_chain _ _ _ (taking_chain _ _ _ _ _ (returnAct_chain n))
  | hold n =>
    show ChainsTo s (execHold n s)
    unfold execHold
    exact onNode_chain _ _ _ (taking_chain _ _ _ _ _ (holdAct_chain n))
  | query n =>
    show ChainsTo s (execQuery n s)
    unfold execQuery
    exact onNode_chain _ _ _ (taking_chain _ _ _ _ _ (queryAct_chain n))
  | read n =>
    show ChainsTo s (execRead n s)
    unfold execRead
    exact onNode_chain _ _ _ (taking_chain _ _ _ _ _ (readAct_chain n))
  | write n => exact execWrite_chain n s
  | data n =>
    show ChainsTo s (execData n s)
    unfold execData
    exact onNode_chain _ _ _ (taking_chain _ _ _ _ _ (dataAct_chain n))
  | stream n =>
    show ChainsTo s (execStream n s)
    unfold execStream
    exact onNode_chain _ _ _ (taking_chain _ _ _ _ _ (streamAct_chain n))
  | cancel n =>
    show ChainsTo s (execCancel n s)
    unfold execCancel
    exact onNode_chain _ _ _ (taking_chain _ _ _ _ _ (cancelAct_chain n))
  | unknownKindFrame l =>
    show ChainsTo s (execUnknownKindFrame l s)
    unfold execUnknownKindFrame
    refine onLink_chain _ _ _ ?_
    split
    · exact .stay s
    · exact .ite (fun _ => .stay s) fun _ => taking_chain _ _ _ _ _ fun _ _ => reject_chain _ _ _ _
  | setBay =>
    show ChainsTo s (execSetBay s)
    unfold execSetBay
    exact supervised_chain _ _ _ (formed_chain _ _ setBayAct_chain)
  | setNode =>
    show ChainsTo s (execSetNode s)
    unfold execSetNode
    exact supervised_chain _ _ _ (formed_chain _ _ setNodeAct_chain)
  | setShelf =>
    show ChainsTo s (execSetShelf s)
    unfold execSetShelf
    exact supervised_chain _ _ _ (formed_chain _ _ setShelfAct_chain)
  | copy =>
    show ChainsTo s (execCopy s)
    unfold execCopy
    exact supervised_chain _ _ _ (formed_chain _ _ copyAct_chain)
  | haltCopy =>
    show ChainsTo s (execHaltCopy s)
    unfold execHaltCopy
    exact supervised_chain _ _ _ (formed_chain _ _ haltAct_chain)
  | dropTwin =>
    show ChainsTo s (execDropTwin s)
    unfold execDropTwin
    exact supervised_chain _ _ _ (formed_chain _ _ dropAct_chain)
  | releaseBay =>
    show ChainsTo s (execReleaseBay s)
    unfold execReleaseBay
    exact supervised_chain _ _ _ (formed_chain _ _ releaseAct_chain)
  | restoreBay =>
    show ChainsTo s (execRestoreBay s)
    unfold execRestoreBay
    exact supervised_chain _ _ _ (formed_chain _ _ restoreAct_chain)
  | reclaim =>
    show ChainsTo s (execReclaim s)
    unfold execReclaim
    exact supervised_chain _ _ _ (formed_chain _ _ reclaimAct_chain)
  | report =>
    show ChainsTo s (execReport s)
    unfold execReport
    exact supervised_chain _ _ _ (formed_chain _ _ fun _ _ _ => reply_chain _ _ _ _)
  | readCause =>
    show ChainsTo s (execReadCause s)
    unfold execReadCause
    exact supervised_chain _ _ _ fun _ _ => (reply_chain _ _ _ _).trans (Move.cause _ _).chain
  | arm =>
    show ChainsTo s (execArm s)
    unfold execArm
    exact supervised_chain _ _ _ (formed_chain _ _ fun _ _ _ => (Move.notices _ _).chain.trans (reply_chain _ _ _ _))
  | save =>
    show ChainsTo s (execSave s)
    unfold execSave
    exact supervised_chain _ _ _ saveAct_chain
  | resetShelf => simp [isReset] at h
  | powerOn => simp [isReset] at h
  | pinReset => simp [isReset] at h
  | frameArrive l bytes =>
    show ChainsTo s (execFrameArrive l bytes s)
    unfold execFrameArrive
    exact onLink_chain _ _ _ (.next (modLink_chain _ _ _ fun x hx => receive_bounded x bytes hx))
  | recordSent l fr =>
    show ChainsTo s (execRecordSent l fr s)
    unfold execRecordSent
    exact onLink_chain _ _ _ (.next (Chain.ite (fun _ => (recordSent_chain _ _ _).trans (finish_shelf _)) fun _ => .refl))
  | farReadyRise l =>
    show ChainsTo s (execFarReadyRise l s)
    unfold execFarReadyRise
    refine onLink_chain _ _ _ (.next (modLink_chain _ _ _ ?_))
    exact fun _ hx => hx
  | nodePresenceFall n =>
    show ChainsTo s (execNodePresenceFall n s)
    unfold execNodePresenceFall
    exact onNode_chain _ _ _ (.next (Chain.ite (fun _ => (linkLost_chain _ _).trans (finish_shelf _)) fun _ => .refl))
  | nodePresenceRise n fr =>
    show ChainsTo s (execNodePresenceRise n fr s)
    unfold execNodePresenceRise
    refine onNode_chain _ _ _ (.next (Chain.ite (fun _ => .refl) fun _ =>
      .trans (modLink_chain _ _ _ ?_) (EndMove.place _ _ _).shelf))
    exact fun _ hx => hx
  | supervisorPresenceFall =>
    show ChainsTo s (execSupervisorPresenceFall s)
    unfold execSupervisorPresenceFall
    exact .next (Chain.ite (fun _ => (modLink_chain _ _ _ fun x _ => lose_bounded x).trans (dropSaveTag_chain _)) fun _ => .refl)
  | supervisorPresenceRise fr =>
    show ChainsTo s (execSupervisorPresenceRise fr s)
    unfold execSupervisorPresenceRise
    refine .next (Chain.ite (fun _ => .refl) fun _ => modLink_chain _ _ _ ?_)
    exact fun _ hx => hx
  | idleClockExpiry k =>
    show ChainsTo s (execIdleClockExpiry k s)
    unfold execIdleClockExpiry
    refine .ite (fun _ => .refused _ _) fun _ => .next ?_
    split
    · exact Chain.ite (fun _ => (decideEnd_chain _ _ _).shelf.trans (finish_shelf _)) fun _ => .refl
    · exact .refl
  | dataGapExpiry n t =>
    show ChainsTo s (execDataGapExpiry n t s)
    unfold execDataGapExpiry
    refine onNode_chain _ _ _ (.ite (fun _ => .refused _ _) fun _ => .next ?_)
    split
    · exact Chain.ite (fun _ => (endDone_chain _ _ _ _).shelf.trans (finish_shelf _)) fun _ => .refl
    · exact .refl
  | upkeepTimerExpiry b =>
    show ChainsTo s (execUpkeepTimerExpiry b s)
    unfold execUpkeepTimerExpiry
    refine onBay_chain _ _ _ (.next (Chain.ite (fun _ => modBay_chain _ _ _ ?_ ?_) fun _ => .refl))
    · exact fun _ => rfl
    · exact fun _ hx => hx
  | spinUpTimeout b =>
    show ChainsTo s (execSpinUpTimeout b s)
    unfold execSpinUpTimeout
    exact onBay_chain _ _ _ (.next (Chain.ite (fun _ => (spinFault_chain _ _ _).trans (finish_shelf _)) fun _ => .refl))
  | identifyTimeout b =>
    show ChainsTo s (execIdentifyTimeout b s)
    unfold execIdentifyTimeout
    exact onBay_chain _ _ _ (.next (Chain.ite (fun _ => (badIdentify_chain _ _).trans (finish_shelf _)) fun _ => .refl))
  | operationNoAnswer b =>
    show ChainsTo s (execOperationNoAnswer b s)
    unfold execOperationNoAnswer
    exact onBay_chain _ _ _ (.next (Chain.ite (fun _ => (faultHandling_chain _ _ _).trans (finish_shelf _)) fun _ => .refl))
  | spinDownTimeout b =>
    show ChainsTo s (execSpinDownTimeout b s)
    unfold execSpinDownTimeout
    exact onBay_chain _ _ _ (.next (Chain.ite (fun _ => enterReleased_chain _ _) fun _ => .refl))
  | spinUpReady b op =>
    show ChainsTo s (execSpinUpReady b op s)
    unfold execSpinUpReady
    exact onBay_chain _ _ _ (.next (Chain.ite (fun _ => issueOp_chain _ _ _) fun _ => .refl))
  | identifyAnswer b op c =>
    show ChainsTo s (execIdentifyAnswer b op c s)
    unfold execIdentifyAnswer
    refine onBay_chain _ _ _ (.ite (fun _ => .refused _ _) fun _ => .ite (fun _ => .next ?_) fun _ => .stay s)
    exact .trans (Chain.ite (fun _ => badIdentify_chain _ _) fun _ => becomeReady_chain _ _ _) (finish_shelf _)
  | readBlockAnswer b op o =>
    show ChainsTo s (execReadBlockAnswer b op o s)
    unfold execReadBlockAnswer
    refine onBay_chain _ _ _ (.ite (fun _ => .refused _ _) fun _ => ?_)
    split
    · exact .ite (fun _ => .next ((readAnswered_chain _ _ _ _).trans (finish_shelf _))) fun _ => .stay s
    · exact .stay s
  | writeBlockAnswer b op o =>
    show ChainsTo s (execWriteBlockAnswer b op o s)
    unfold execWriteBlockAnswer
    refine onBay_chain _ _ _ ?_
    split
    · exact .ite (fun _ => .next ((writeAnswered_chain _ _ _ _).trans (finish_shelf _))) fun _ => .stay s
    · exact .stay s
  | verifyRunAnswer b op o =>
    show ChainsTo s (execVerifyRunAnswer b op o s)
    unfold execVerifyRunAnswer
    refine onBay_chain _ _ _ ?_
    split
    · exact .ite (fun _ => .stay s) fun _ => .ite
        (fun _ => .next ((verifyAnswered_chain _ _ _ _ _).trans (finish_shelf _))) fun _ => .refused _ _
    · exact .stay s
  | spinDownDone b op =>
    show ChainsTo s (execSpinDownDone b op s)
    unfold execSpinDownDone
    exact onBay_chain _ _ _ (.next (Chain.ite (fun _ => enterReleased_chain _ _) fun _ => .refl))
  | bayPresenceRise b =>
    show ChainsTo s (execBayPresenceRise b s)
    unfold execBayPresenceRise
    refine onBay_chain _ _ _ (.next (Chain.ite (fun _ => .refl) fun _ => ?_))
    have hp : Chain s (s.modBay b fun x => { x with presence := true }) := by
      refine modBay_chain _ _ _ ?_ ?_
      · exact fun _ => rfl
      · exact fun _ hx => hx
    exact Chain.ite (fun _ => hp.trans (seated_chain _ _)) fun _ => hp
  | bayPresenceFall b =>
    show ChainsTo s (execBayPresenceFall b s)
    unfold execBayPresenceFall
    refine onBay_chain _ _ _ (.next (Chain.ite (fun _ => .trans (.trans (modBay_chain _ _ _ ?_ ?_) (pulled_chain _ _))
      (finish_shelf _)) fun _ => .refl))
    · exact fun _ => rfl
    · exact fun _ hx => hx
  | releaseButtonPress b =>
    show ChainsTo s (execReleaseButtonPress b s)
    unfold execReleaseButtonPress
    exact onBay_chain _ _ _ (.next (Chain.ite (fun _ => (releaseBay_chain _ _).trans (finish_shelf _)) fun _ => .refl))
  | saveComplete =>
    show ChainsTo s (execSaveComplete s)
    unfold execSaveComplete
    refine .next ?_
    split
    · exact saveComplete_chain _ _
    · exact .refl
  | dispatchPoint b =>
    show ChainsTo s (execDispatchPoint b s)
    unfold execDispatchPoint
    exact onBay_chain _ _ _ (.next (Chain.ite (fun _ => dispatch_chain _ _) fun _ => .refl))
  | poolServe =>
    show ChainsTo s (execPoolServe s)
    unfold execPoolServe
    exact .next ((servePool_chain _ _).trans (finish_shelf _))
  | dataPlaceWaiting n =>
    show ChainsTo s (execDataPlaceWaiting n s)
    unfold execDataPlaceWaiting
    exact onNode_chain _ _ _ (.next (Chain.ite (fun _ => (placeWaiting_chain _ _).trans (finish_shelf _)) fun _ => .refl))
  | loanNoticePlace n =>
    show ChainsTo s (execLoanNoticePlace n s)
    unfold execLoanNoticePlace
    refine onNode_chain _ _ _ (.next (Chain.ite (fun _ => ?_) fun _ => .refl))
    split
    · exact (placeLoanNotice_chain _ _).shelf.trans (finish_shelf _)
    · exact .refl
  | noticePlace =>
    show ChainsTo s (execNoticePlace s)
    unfold execNoticePlace
    refine .next (Chain.ite (fun _ => ?_) fun _ => .refl)
    split
    · exact placeNotice_chain _ _
    · exact .refl
  | spinAdmit =>
    show ChainsTo s (execSpinAdmit s)
    unfold execSpinAdmit
    exact .next (admitFrom_chain _ _)
  | segmentBoundary n t =>
    show ChainsTo s (execSegmentBoundary n t s)
    unfold execSegmentBoundary
    refine onNode_chain _ _ _ (.ite (fun _ => .refused _ _) fun _ => ?_)
    split
    · exact .next (Chain.ite (fun _ => (boundary_chain _ _).trans (finish_shelf _)) fun _ => .refl)
    · exact .stay s
  | heldMoveCarryOut k =>
    show ChainsTo s (execHeldMoveCarryOut k s)
    unfold execHeldMoveCarryOut
    refine .ite (fun _ => .refused _ _) fun _ => .next ?_
    split
    · split
      · exact Chain.ite (fun _ => (carryOutHeld_chain _ _ _).trans (finish_shelf _)) fun _ => .refl
      · exact .refl
    · exact .refl
  | drainComplete b =>
    show ChainsTo s (execDrainComplete b s)
    unfold execDrainComplete
    exact onBay_chain _ _ _ (.next (drainTest_chain _ _))
  | copyEnd c =>
    show ChainsTo s (execCopyEnd c s)
    unfold execCopyEnd
    exact .ite (fun _ => .refused _ _) fun _ =>
      .next (Chain.ite (fun _ => (endCopy_chain _ _).trans (finish_shelf _)) fun _ => .refl)
  | tick =>
    show ChainsTo s (execTick s)
    unfold execTick
    exact .next (Move.tick s).chain
  | overlongFrameDiscard l n =>
    show ChainsTo s (execOverlongFrameDiscard l n s)
    unfold execOverlongFrameDiscard
    exact onLink_chain _ _ _ (.ite (fun _ => .next (modLink_chain _ _ _ fun x hx => receive_bounded x _ hx))
      fun _ => .refused _ _)

end Sys2Proof.Machine
end

