-- ==== Sys2Proof/Laws/HeldMoves.lean ====
section
/-! SUPPORT. Which loans hold a move: no move of a chain gives one to a loan that is not ACTIVE, and a reset leaves no
loan. -/

namespace Sys2Proof.Machine

/-- Replacing one slot keeps what holds of every slot, when the new slot keeps it. -/
theorem movesActive_setSlot {s : State} {k : Nat} {x : Slot} (h : s.MovesActive) (hx : x.movesActive) :
    (s.setSlot k x).MovesActive := by
  intro m
  show (((s.setSlot k x).slot m).movesActive)
  by_cases e : k = m
  · subst e
    by_cases hl : k < s.loans.length
    · rwa [State.slot_setSlot_self _ _ _ hl]
    · rw [State.setSlot, List.set_eq_of_length_le (Nat.le_of_not_lt hl)]
      exact h k
  · rw [State.slot_setSlot_ne _ _ _ _ e]
    exact h m

/-- A state with the same loan table. -/
theorem State.MovesActive.of_loans {s t : State} (h : s.MovesActive) (e : t.loans = s.loans) : t.MovesActive := by
  intro k
  unfold State.loan State.slot
  rw [e]
  exact h k

theorem EndMove.movesActive {s t : State} (m : EndMove s t) (h : s.MovesActive) : t.MovesActive := by
  cases m with
  | slot k x hx => exact movesActive_setSlot h (hx (h k))
  | place l o => refine h.of_loans ?_; unfold Machine.place; split <;> rfl
  | placeReserved l o => refine h.of_loans ?_; unfold Machine.placeReserved; split <;> rfl
  | giveBack ref n => refine h.of_loans ?_; unfold Machine.giveBack; split <;> rfl
  | _ => exact h.of_loans rfl

theorem GrantMove.movesActive {s t : State} (m : GrantMove s t) (h : s.MovesActive) : t.MovesActive := by
  cases m with
  | ends m => exact m.movesActive h
  | _ => exact h.of_loans rfl

/-- A tick moves the idle clock of a loan, and neither its state nor its move. -/
theorem loan_tickState (s : State) (k : Nat) : (tickState s).loan k = (s.loan k).map Loan.tick := by
  simp only [State.loan, State.slot, tickState, List.getD_eq_getElem?_getD, List.getElem?_map]
  cases s.loans[k]? <;> rfl

theorem movesActive_tickState {s : State} (h : s.MovesActive) : (tickState s).MovesActive := by
  intro k l hl
  rw [loan_tickState] at hl
  obtain ⟨x, hx, rfl⟩ := Option.map_eq_some_iff.mp hl
  have : x.tick.move = x.move ∧ x.tick.state = x.state := by unfold Loan.tick; split <;> exact ⟨rfl, rfl⟩
  rw [this.1, this.2]
  exact h k x hx

theorem Move.movesActive {s t : State} (m : Move s t) (h : s.MovesActive) : t.MovesActive := by
  cases m with
  | grant m => exact m.movesActive h
  | tick => exact movesActive_tickState h
  | lendChannel c n => refine h.of_loans ?_; unfold Machine.lendChannel; split <;> rfl
  | lend ref n => refine h.of_loans ?_; unfold Machine.lend; split <;> rfl
  | _ => exact h.of_loans rfl

/-- A chain gives no move to a loan that is not ACTIVE. -/
theorem Chain.movesActive {s t : State} (c : Chain s t) (h : s.MovesActive) : t.MovesActive := by
  induction c with
  | refl => exact h
  | tail _ m ih => exact m.movesActive ih

/-! ### Resets -/

theorem place_loans (l : Nat) (o : OutRecord) (s : State) : (place l o s).loans = s.loans := by
  unfold place; split <;> rfl

theorem foldl_loans {α : Type} (g : State → α → State) (h : ∀ s a, (g s a).loans = s.loans) (as : List α) (s : State) :
    (as.foldl g s).loans = s.loans := by
  induction as generalizing s with
  | nil => rfl
  | cons a as ih => exact (ih _).trans (h s a)

theorem placeRestarted_loans (s : State) : (placeRestarted s).loans = s.loans :=
  foldl_loans _ (fun s _ => place_loans _ _ s) _ s

theorem eachBay_loans (f : Nat → State → State) (h : ∀ b s, (f b s).loans = s.loans) (s : State) :
    (s.eachBay f).loans = s.loans :=
  foldl_loans _ (fun s b => h b s) _ s

theorem resetBay_loans (b : Nat) (s : State) : (resetBay b s).loans = s.loans := by
  unfold resetBay
  dsimp only
  split <;> split <;> rfl

theorem powerBay_loans (b : Nat) (s : State) : (powerBay b s).loans = s.loans := by
  unfold powerBay
  split <;> rfl

/-- R1: what a pin reset and RESET SHELF leave of the loan table. -/
theorem warmReset_loans (s : State) : (warmReset s).loans = s.loans.map Slot.cleared := by
  unfold warmReset
  rw [placeRestarted_loans, eachBay_loans _ resetBay_loans]
  rfl

/-- R1: what power-on leaves of the loan table. -/
theorem powerOn_loans (s : State) : (powerOn s).loans = List.replicate Config.slots { issue := 0, loan := none } := by
  unfold powerOn
  dsimp only
  rw [placeRestarted_loans, eachBay_loans _ powerBay_loans]
  rfl

/-- A table without a loan holds no move. -/
theorem movesActive_of_noLoan {s : State} (h : ∀ x ∈ s.loans, x.loan = none) : s.MovesActive := by
  intro k l hl
  have hk := s.slot_lt_of_loan k l hl
  have := h _ (List.getElem_mem hk)
  simp [State.loan, State.slot, List.getD_eq_getElem?_getD, List.getElem?_eq_getElem hk, this] at hl

end Sys2Proof.Machine
end

