-- ==== Sys2Proof/Laws/PerInstr.lean ====
section
/-! SUPPORT. A fact of each command as syntax: the numbers that a well-formed command names are those the part has
(00_scope.md 4.2, Table 4-1). -/

set_option Elab.async false

namespace Sys2Proof.Laws.Operands

/-- The parts that a command names. -/
structure Named where
  link    : Option Nat := none
  node    : Option Nat := none
  bay     : Option Nat := none
  slot    : Option Nat := none
  channel : Option Nat := none
  tag     : Option Nat := none

/-- What each command names. -/
def named : Instr → Named
  | .borrow node => { node := some node }
  | .withdraw node => { node := some node }
  | .returnLoan node => { node := some node }
  | .hold node => { node := some node }
  | .query node => { node := some node }
  | .read node => { node := some node }
  | .write node => { node := some node }
  | .data node => { node := some node }
  | .stream node => { node := some node }
  | .cancel node => { node := some node }
  | .unknownKindFrame link => { link := some link }
  | .setBay => {}
  | .setNode => {}
  | .setShelf => {}
  | .copy => {}
  | .haltCopy => {}
  | .dropTwin => {}
  | .releaseBay => {}
  | .restoreBay => {}
  | .reclaim => {}
  | .report => {}
  | .readCause => {}
  | .arm => {}
  | .save => {}
  | .resetShelf => {}
  | .powerOn => {}
  | .pinReset => {}
  | .frameArrive link _ => { link := some link }
  | .recordSent link _ => { link := some link }
  | .farReadyRise link => { link := some link }
  | .nodePresenceFall node => { node := some node }
  | .nodePresenceRise node _ => { node := some node }
  | .supervisorPresenceFall => {}
  | .supervisorPresenceRise _ => {}
  | .idleClockExpiry slot => { slot := some slot }
  | .dataGapExpiry node tag => { node := some node, tag := some tag }
  | .upkeepTimerExpiry bay => { bay := some bay }
  | .spinUpTimeout bay => { bay := some bay }
  | .identifyTimeout bay => { bay := some bay }
  | .operationNoAnswer bay => { bay := some bay }
  | .spinDownTimeout bay => { bay := some bay }
  | .spinUpReady bay _ => { bay := some bay }
  | .identifyAnswer bay _ _ => { bay := some bay }
  | .readBlockAnswer bay _ _ => { bay := some bay }
  | .writeBlockAnswer bay _ _ => { bay := some bay }
  | .verifyRunAnswer bay _ _ => { bay := some bay }
  | .spinDownDone bay _ => { bay := some bay }
  | .bayPresenceRise bay => { bay := some bay }
  | .bayPresenceFall bay => { bay := some bay }
  | .releaseButtonPress bay => { bay := some bay }
  | .saveComplete => {}
  | .dispatchPoint bay => { bay := some bay }
  | .poolServe => {}
  | .dataPlaceWaiting node => { node := some node }
  | .loanNoticePlace node => { node := some node }
  | .noticePlace => {}
  | .spinAdmit => {}
  | .segmentBoundary node tag => { node := some node, tag := some tag }
  | .heldMoveCarryOut slot => { slot := some slot }
  | .drainComplete bay => { bay := some bay }
  | .copyEnd channel => { channel := some channel }
  | .tick => {}
  | .overlongFrameDiscard link _ => { link := some link }

/-- Links 0..16, nodes 1..16, bays 0..23, slots 0..95, channels 0 and 1, tags 1..255. -/
def Statement (i : Instr) : Prop :=
  i.wellFormed = true →
    (∀ l ∈ (named i).link, l ≤ 16) ∧ (∀ n ∈ (named i).node, 1 ≤ n ∧ n ≤ 16) ∧ (∀ b ∈ (named i).bay, b < 24) ∧
    (∀ k ∈ (named i).slot, k < 96) ∧ (∀ c ∈ (named i).channel, c < 2) ∧ ∀ t ∈ (named i).tag, 1 ≤ t ∧ t ≤ 255

/-! What the checks of well-formedness say. -/

theorem isLink_iff (l : Nat) : isLink l = true ↔ l ≤ 16 := decide_eq_true_iff
theorem isNode_iff (n : Nat) : isNode n = true ↔ 1 ≤ n ∧ n ≤ 16 := by
  rw [isNode, Bool.and_eq_true]; exact and_congr decide_eq_true_iff decide_eq_true_iff
theorem isBay_iff (b : Nat) : isBay b = true ↔ b < 24 := decide_eq_true_iff
theorem isSlot_iff (k : Nat) : isSlot k = true ↔ k < 96 := decide_eq_true_iff
theorem isChannel_iff (c : Nat) : isChannel c = true ↔ c < 2 := decide_eq_true_iff
theorem isTag_iff (t : Nat) : isTag t = true ↔ 1 ≤ t ∧ t ≤ 255 := by simp [isTag]

/-! One lemma for each command. -/

theorem borrow (node : Nat) : Statement (.borrow node) := by
  simp [Statement, named, Instr.wellFormed, isNode_iff]
theorem withdraw (node : Nat) : Statement (.withdraw node) := by
  simp [Statement, named, Instr.wellFormed, isNode_iff]
theorem returnLoan (node : Nat) : Statement (.returnLoan node) := by
  simp [Statement, named, Instr.wellFormed, isNode_iff]
theorem hold (node : Nat) : Statement (.hold node) := by
  simp [Statement, named, Instr.wellFormed, isNode_iff]
theorem query (node : Nat) : Statement (.query node) := by
  simp [Statement, named, Instr.wellFormed, isNode_iff]
theorem read (node : Nat) : Statement (.read node) := by
  simp [Statement, named, Instr.wellFormed, isNode_iff]
theorem write (node : Nat) : Statement (.write node) := by
  simp [Statement, named, Instr.wellFormed, isNode_iff]
theorem data (node : Nat) : Statement (.data node) := by
  simp [Statement, named, Instr.wellFormed, isNode_iff]
theorem stream (node : Nat) : Statement (.stream node) := by
  simp [Statement, named, Instr.wellFormed, isNode_iff]
theorem cancel (node : Nat) : Statement (.cancel node) := by
  simp [Statement, named, Instr.wellFormed, isNode_iff]
theorem unknownKindFrame (link : Nat) : Statement (.unknownKindFrame link) := by
  simp [Statement, named, Instr.wellFormed, isLink_iff]
theorem setBay : Statement .setBay := by simp [Statement, named]
theorem setNode : Statement .setNode := by simp [Statement, named]
theorem setShelf : Statement .setShelf := by simp [Statement, named]
theorem copy : Statement .copy := by simp [Statement, named]
theorem haltCopy : Statement .haltCopy := by simp [Statement, named]
theorem dropTwin : Statement .dropTwin := by simp [Statement, named]
theorem releaseBay : Statement .releaseBay := by simp [Statement, named]
theorem restoreBay : Statement .restoreBay := by simp [Statement, named]
theorem reclaim : Statement .reclaim := by simp [Statement, named]
theorem report : Statement .report := by simp [Statement, named]
theorem readCause : Statement .readCause := by simp [Statement, named]
theorem arm : Statement .arm := by simp [Statement, named]
theorem save : Statement .save := by simp [Statement, named]
theorem resetShelf : Statement .resetShelf := by simp [Statement, named]
theorem powerOn : Statement .powerOn := by simp [Statement, named]
theorem pinReset : Statement .pinReset := by simp [Statement, named]
theorem frameArrive (link : Nat) (_bytes : List Byte) : Statement (.frameArrive link _bytes) := by
  simp +contextual [Statement, named, Instr.wellFormed, isLink_iff]
theorem recordSent (link : Nat) (_farReady : Bool) : Statement (.recordSent link _farReady) := by
  simp +contextual [Statement, named, Instr.wellFormed, isLink_iff]
theorem farReadyRise (link : Nat) : Statement (.farReadyRise link) := by
  simp [Statement, named, Instr.wellFormed, isLink_iff]
theorem nodePresenceFall (node : Nat) : Statement (.nodePresenceFall node) := by
  simp [Statement, named, Instr.wellFormed, isNode_iff]
theorem nodePresenceRise (node : Nat) (_farReady : Bool) : Statement (.nodePresenceRise node _farReady) := by
  simp +contextual [Statement, named, Instr.wellFormed, isNode_iff]
theorem supervisorPresenceFall : Statement .supervisorPresenceFall := by simp [Statement, named]
theorem supervisorPresenceRise (_farReady : Bool) : Statement (.supervisorPresenceRise _farReady) := by
  simp +contextual [Statement, named, Instr.wellFormed, ]
theorem idleClockExpiry (slot : Nat) : Statement (.idleClockExpiry slot) := by
  simp [Statement, named, Instr.wellFormed, isSlot_iff]
theorem dataGapExpiry (node : Nat) (tag : Nat) : Statement (.dataGapExpiry node tag) := by
  simp +contextual [Statement, named, Instr.wellFormed, isNode_iff, isTag_iff]
theorem upkeepTimerExpiry (bay : Nat) : Statement (.upkeepTimerExpiry bay) := by
  simp [Statement, named, Instr.wellFormed, isBay_iff]
theorem spinUpTimeout (bay : Nat) : Statement (.spinUpTimeout bay) := by
  simp [Statement, named, Instr.wellFormed, isBay_iff]
theorem identifyTimeout (bay : Nat) : Statement (.identifyTimeout bay) := by
  simp [Statement, named, Instr.wellFormed, isBay_iff]
theorem operationNoAnswer (bay : Nat) : Statement (.operationNoAnswer bay) := by
  simp [Statement, named, Instr.wellFormed, isBay_iff]
theorem spinDownTimeout (bay : Nat) : Statement (.spinDownTimeout bay) := by
  simp [Statement, named, Instr.wellFormed, isBay_iff]
theorem spinUpReady (bay : Nat) (_op : Nat) : Statement (.spinUpReady bay _op) := by
  simp +contextual [Statement, named, Instr.wellFormed, isBay_iff]
theorem identifyAnswer (bay : Nat) (_op : Nat) (_capacity : Nat) : Statement (.identifyAnswer bay _op _capacity) := by
  simp +contextual [Statement, named, Instr.wellFormed, isBay_iff]
theorem readBlockAnswer (bay : Nat) (_op : Nat) (_outcome : ReadOutcome) : Statement (.readBlockAnswer bay _op _outcome) := by
  simp +contextual [Statement, named, Instr.wellFormed, isBay_iff]
theorem writeBlockAnswer (bay : Nat) (_op : Nat) (_outcome : WriteOutcome) : Statement (.writeBlockAnswer bay _op _outcome) := by
  simp +contextual [Statement, named, Instr.wellFormed, isBay_iff]
theorem verifyRunAnswer (bay : Nat) (_op : Nat) (_outcome : VerifyOutcome) : Statement (.verifyRunAnswer bay _op _outcome) := by
  simp +contextual [Statement, named, Instr.wellFormed, isBay_iff]
theorem spinDownDone (bay : Nat) (_op : Nat) : Statement (.spinDownDone bay _op) := by
  simp +contextual [Statement, named, Instr.wellFormed, isBay_iff]
theorem bayPresenceRise (bay : Nat) : Statement (.bayPresenceRise bay) := by
  simp [Statement, named, Instr.wellFormed, isBay_iff]
theorem bayPresenceFall (bay : Nat) : Statement (.bayPresenceFall bay) := by
  simp [Statement, named, Instr.wellFormed, isBay_iff]
theorem releaseButtonPress (bay : Nat) : Statement (.releaseButtonPress bay) := by
  simp [Statement, named, Instr.wellFormed, isBay_iff]
theorem saveComplete : Statement .saveComplete := by simp [Statement, named]
theorem dispatchPoint (bay : Nat) : Statement (.dispatchPoint bay) := by
  simp [Statement, named, Instr.wellFormed, isBay_iff]
theorem poolServe : Statement .poolServe := by simp [Statement, named]
theorem dataPlaceWaiting (node : Nat) : Statement (.dataPlaceWaiting node) := by
  simp [Statement, named, Instr.wellFormed, isNode_iff]
theorem loanNoticePlace (node : Nat) : Statement (.loanNoticePlace node) := by
  simp [Statement, named, Instr.wellFormed, isNode_iff]
theorem noticePlace : Statement .noticePlace := by simp [Statement, named]
theorem spinAdmit : Statement .spinAdmit := by simp [Statement, named]
theorem segmentBoundary (node : Nat) (tag : Nat) : Statement (.segmentBoundary node tag) := by
  simp +contextual [Statement, named, Instr.wellFormed, isNode_iff, isTag_iff]
theorem heldMoveCarryOut (slot : Nat) : Statement (.heldMoveCarryOut slot) := by
  simp [Statement, named, Instr.wellFormed, isSlot_iff]
theorem drainComplete (bay : Nat) : Statement (.drainComplete bay) := by
  simp [Statement, named, Instr.wellFormed, isBay_iff]
theorem copyEnd (channel : Nat) : Statement (.copyEnd channel) := by
  simp [Statement, named, Instr.wellFormed, isChannel_iff]
theorem tick : Statement .tick := by simp [Statement, named]
theorem overlongFrameDiscard (link : Nat) (_length : Nat) : Statement (.overlongFrameDiscard link _length) := by
  simp +contextual [Statement, named, Instr.wellFormed, isLink_iff]

end Sys2Proof.Laws.Operands
end

