-- ==== Sys2Proof/Laws/Taking.lean ====
section
/-! SUPPORT. What taking the head frame of a link, answering it, ending a handling, a grant scan and the pool come to. -/

namespace Sys2Proof.Machine

/-- A presence line that is high belongs to a link the part has. -/
theorem link_lt_of_presence {s : State} {l : Nat} (h : (s.link l).presence = true) : l < s.links.length := by
  by_contra hl
  have : s.link l = Link.initial := by
    simp [State.link, List.getD_eq_getElem?_getD, List.getElem?_eq_none (Nat.le_of_not_lt hl)]
  rw [this] at h
  exact absurd h (by decide)

/-- What taking a frame leaves. -/
theorem State.CanTake.takeHead {s : State} {l kind : Nat} {f : Frame} {needs : List Byte → Nat}
    (h : s.CanTake l kind (needs f.body) f) :
    takeHead l kind needs s = some (f, s.setLink l { (s.link l).taken with reserved := (s.link l).reserved + needs f.body }) := by
  obtain ⟨rest, e⟩ : ∃ rest, (s.link l).inbound = f :: rest := by
    have := h.head
    cases hi : (s.link l).inbound with
    | nil => simp [hi] at this
    | cons g rest => simp [hi] at this; exact ⟨rest, by rw [this]⟩
  have hk := h.isKind
  have hp := h.presence
  have hh := h.notHeld
  have hr := h.room
  simp only [Machine.takeHead, e]
  rw [if_pos (by simp [hk, hp, hh, hr])]
  simp [State.modLink, Link.taken, e]

theorem State.CanTake.lt {s : State} {l kind needs : Nat} {f : Frame} (h : s.CanTake l kind needs f) : l < s.links.length :=
  link_lt_of_presence h.presence

/-- With no grant scan owed, the end of a handling changes nothing. -/
theorem finish_of_settled {s : State} (h : s.scanDue = false) : finish s = s := by simp [finish, h]

/-- The end of a handling owes no grant scan. -/
@[simp] theorem finish_scanDue (s : State) : (finish s).scanDue = false := by
  unfold finish grantScan
  split
  · rfl
  · simpa using ‹¬s.scanDue = true›

/-- What a taken frame's handling answers, in terms of what its act does. -/
theorem State.CanTake.taking {s : State} {l kind : Nat} {f : Frame} {needs : List Byte → Nat}
    (h : s.CanTake l kind (needs f.body) f) (act : Frame → State → State) :
    Machine.taking l kind needs act s =
      .next (finish (act f (s.setLink l { (s.link l).taken with reserved := (s.link l).reserved + needs f.body }))) := by
  simp only [Machine.taking, h.takeHead]

theorem isEmpty_append_singleton {α : Type} (xs : List α) (a : α) : (xs ++ [a]).isEmpty = false := by cases xs <;> rfl

/-- A reply into the one entry reserved at the taking answers the frame. -/
theorem reply_taken {s : State} {l : Nat} (f : Frame) (r : Record) (hp : (s.link l).presence = true) :
    reply l f r (s.setLink l { (s.link l).taken with reserved := (s.link l).reserved + 1 }) = s.answer l f r := by
  have hl := link_lt_of_presence hp
  have e (x : Link) : (s.setLink l x).link l = x := State.link_setLink_self _ _ _ hl
  simp only [reply, placeReserved, State.modLink, e]
  rw [if_pos ⟨by simpa [Link.taken] using hp, by simp⟩]
  simp [State.answer, State.setLink, List.set_set, Link.beginSending, Link.placing, Link.taken,
    isEmpty_append_singleton]

/-! ### The grant scan (R34) and the pool (R82) -/

/-- A wait entry that a scan at state `s` leaves as it stands, whatever entries stand before it (R34). -/
def WaitEntry.stays (s : State) (e : WaitEntry) : Prop :=
  e.masked = true ∨ ((s.bay e.bay).state.awaitable = true ∧ s.isTwinTarget e.bay = false ∧
    rangeOutside (s.bay e.bay).capacity e.range = false ∧ ∀ earlier, s.grantable earlier e = false)

/-- An entry that conflicts with a loan is not grantable (R35). -/
theorem grantable_of_conflict {s : State} {e : WaitEntry} (h : s.conflictsTable e.bay e.kind e.range = true)
    (earlier : List WaitEntry) : s.grantable earlier e = false := by simp [State.grantable, h]

/-- An entry behind an unmasked entry that it conflicts with is not grantable (R35). -/
theorem grantable_of_earlier {s : State} {e x : WaitEntry} {earlier : List WaitEntry} (hx : x ∈ earlier)
    (hm : x.masked = false) (hc : conflictsEntry e.bay e.kind e.range x = true) : s.grantable earlier e = false := by
  have : (earlier.any fun x => !x.masked && conflictsEntry e.bay e.kind e.range x) = true :=
    List.any_eq_true.mpr ⟨x, hx, by simp [hm, hc]⟩
  simp [State.grantable, this]

/-- The walk passes over an entry that waits for nothing but a grant and is not grantable now. -/
theorem scanFrom_skip {s : State} {e : WaitEntry} {kept : List WaitEntry} (rest : List WaitEntry)
    (ha : (s.bay e.bay).state.awaitable = true) (ht : s.isTwinTarget e.bay = false)
    (hr : rangeOutside (s.bay e.bay).capacity e.range = false) (hg : s.grantable kept e = false) :
    scanFrom kept (e :: rest) s = scanFrom (kept ++ [e]) rest s := by
  simp [scanFrom, ha, ht, hr, hg]

/-- The walk passes over the entries that stay, and changes nothing. -/
theorem scanFrom_stays {s : State} (todo : List WaitEntry) (h : ∀ e ∈ todo, e.stays s) (kept rest : List WaitEntry) :
    scanFrom kept (todo ++ rest) s = scanFrom (kept ++ todo) rest s := by
  induction todo generalizing kept with
  | nil => simp
  | cons e todo ih =>
    have ih := ih (fun x hx => h x (List.mem_cons_of_mem e hx)) (kept ++ [e])
    rw [List.append_assoc, List.singleton_append] at ih
    rw [List.cons_append, ← ih]
    rcases h e List.mem_cons_self with hm | ⟨ha, ht, hr, hg⟩
    · simp [scanFrom, hm]
    · exact scanFrom_skip _ ha ht hr (hg kept)

/-- R82: the head waiter, a bay, is served, and the list goes on with the next. -/
theorem servePool_bay {s : State} {b count : Nat} {rest : List Waiter} (fuel : Nat)
    (h : s.poolWait = { who := .bay b, count := count } :: rest) (hc : count ≤ s.poolFree) :
    servePool (fuel + 1) s = servePool fuel (serveBay b count { s with poolWait := rest }) := by
  simp [servePool, h, Nat.not_lt.mpr hc]

/-- R82, R67: the head waiter, a node link, has its held WRITE checked again, and the list goes on with the next. -/
theorem servePool_link {s : State} {n count : Nat} {rest : List Waiter} (fuel : Nat)
    (h : s.poolWait = { who := .link n, count := count } :: rest) (hc : count ≤ s.poolFree) :
    servePool (fuel + 1) s = servePool fuel (recheckWrite n { s with poolWait := rest }) := by
  simp [servePool, h, Nat.not_lt.mpr hc]

/-- R82: a head waiter whose count is not covered stops the serving. -/
theorem servePool_short {s : State} {w : Waiter} {rest : List Waiter} (fuel : Nat) (h : s.poolWait = w :: rest)
    (hc : s.poolFree < w.count) : servePool fuel s = s := by
  cases fuel <;> simp [servePool, h, hc]

end Sys2Proof.Machine
end

