-- ==== Sys2Proof/Laws/Refusals.lean ====
section
/-! SUPPORT. What becomes of a reservation that stands for a wait entry: ends and moves of loans leave it alone in a quiet
state, the removal of the entry fills it with REFUSED, and what follows only places more records. -/

namespace Sys2Proof.Machine

/-! ### Placed records only grow -/

/-- What a link has placed, it still has, with more after it; its presence line is as it was. -/
def Grows (s t : State) : Prop :=
  ∀ l, (t.link l).presence = (s.link l).presence ∧ (s.link l).placed <+: (t.link l).placed

theorem Grows.refl (s : State) : Grows s s := fun _ => ⟨rfl, List.prefix_rfl⟩
theorem Grows.trans {s t u : State} (a : Grows s t) (b : Grows t u) : Grows s u := fun l =>
  ⟨(b l).1.trans (a l).1, (a l).2.trans (b l).2⟩

theorem Grows.of_links {s t : State} (e : t.links = s.links) : Grows s t := by
  intro l
  have : t.link l = s.link l := by unfold State.link; rw [e]
  rw [this]
  exact ⟨rfl, List.prefix_rfl⟩

theorem Grows.hasPlaced {s t : State} (h : Grows s t) {l : Nat} {o : OutRecord} (hp : s.HasPlaced l o) : t.HasPlaced l o :=
  (h l).2.subset hp

/-- Changing one link by a function that keeps presence and only appends to what is placed. -/
theorem Grows.modLink (s : State) (l : Nat) (f : Link → Link) (hp : ∀ x, (f x).presence = x.presence)
    (ho : ∀ x, x.placed <+: (f x).placed) : Grows s (s.modLink l f) := by
  intro m
  by_cases e : l = m
  · subst e
    by_cases hl : l < s.links.length
    · rw [State.modLink, State.link_setLink_self _ _ _ hl]
      exact ⟨hp _, ho _⟩
    · rw [State.modLink, State.setLink, List.set_eq_of_length_le (Nat.le_of_not_lt hl)]
      exact ⟨rfl, List.prefix_rfl⟩
  · rw [State.modLink, State.link_setLink_ne _ _ _ _ e]
    exact ⟨rfl, List.prefix_rfl⟩

theorem place_grows (l : Nat) (o : OutRecord) (s : State) : Grows s (place l o s) := by
  unfold place
  split
  · refine Grows.modLink _ _ _ ?_ ?_
    · exact fun _ => rfl
    · exact fun x => List.prefix_append _ _
  · exact .refl s

theorem placeReserved_grows (l : Nat) (o : OutRecord) (s : State) : Grows s (placeReserved l o s) := by
  unfold placeReserved
  split
  · refine Grows.modLink _ _ _ ?_ ?_
    · exact fun _ => rfl
    · exact fun x => List.prefix_append _ _
  · exact .refl s

theorem EndMove.grows {s t : State} (m : EndMove s t) : Grows s t := by
  cases m with
  | place l o => exact place_grows l o s
  | placeReserved l o => exact placeReserved_grows l o s
  | giveBack ref n => refine .of_links ?_; unfold Machine.giveBack; split <;> rfl
  | _ => exact .of_links rfl

theorem GrantChain.grows {s t : State} (c : GrantChain s t) : Grows s t := by
  induction c with
  | refl => exact .refl s
  | tail _ m ih =>
    refine ih.trans ?_
    cases m with
    | ends m => exact m.grows
    | _ => exact .of_links rfl

/-! ### Calm operations -/

/-- From a quiet state: the state is still quiet, the wait list and every reservation of a node link stand, and placed
records only grow. -/
def Calm (s t : State) : Prop :=
  s.quiet → t.quiet ∧ t.waits = s.waits ∧ Grows s t ∧ ∀ l, l ≠ 0 → (s.link l).reserved ≤ (t.link l).reserved

theorem Calm.refl (s : State) : Calm s s := fun h => ⟨h, rfl, .refl s, fun _ _ => le_rfl⟩
theorem Calm.trans {s t u : State} (a : Calm s t) (b : Calm t u) : Calm s u := fun h =>
  have ⟨q, w, g, r⟩ := a h
  have ⟨q', w', g', r'⟩ := b q
  ⟨q', w'.trans w, g.trans g', fun l hl => (r l hl).trans (r' l hl)⟩

theorem foldl_calm {α : Type} (g : State → α → State) (h : ∀ s a, Calm s (g s a)) (as : List α) (s : State) :
    Calm s (as.foldl g s) := by
  induction as generalizing s with
  | nil => exact .refl s
  | cons a as ih => exact (h s a).trans (ih _)

theorem eachSlot_calm (g : Nat → State → State) (h : ∀ k s, Calm s (g k s)) (s : State) : Calm s (s.eachSlot g) :=
  foldl_calm _ (fun s k => h k s) _ s

/-- A change of other parts of the state. -/
theorem Calm.of_parts {s t : State} (hr : t.records = s.records) (hl : t.loans = s.loans) (hs : t.settings = s.settings)
    (hw : t.waits = s.waits) (hk : t.links = s.links) : Calm s t := by
  intro ⟨q1, q2, q3⟩
  refine ⟨⟨hr.trans q1, fun k l e => q2 k l ?_, fun b => ?_⟩, hw, .of_links hk, fun l _ => ?_⟩
  · unfold State.loan State.slot at e ⊢; rwa [hl] at e
  · have := q3 b; unfold State.profile at this ⊢; rwa [hs]
  · unfold State.link; rw [hk]

/-- A change of one slot that gives its loan no return tag. -/
theorem setSlot_calm (k : Nat) (x : Slot) (s : State)
    (h : (∀ l, s.loan k = some l → l.returnTag = none) → ∀ l, x.loan = some l → l.returnTag = none) :
    Calm s (s.setSlot k x) := by
  intro ⟨q1, q2, q3⟩
  refine ⟨⟨q1, fun m l e => ?_, q3⟩, rfl, .of_links rfl, fun _ _ => le_rfl⟩
  by_cases hkm : k = m
  · subst hkm
    by_cases hl : k < s.loans.length
    · rw [State.loan, State.slot_setSlot_self _ _ _ hl] at e
      exact h (q2 k) l e
    · rw [State.setSlot, List.set_eq_of_length_le (Nat.le_of_not_lt hl)] at e
      exact q2 k l e
  · rw [State.loan, State.slot_setSlot_ne _ _ _ _ hkm] at e
    exact q2 m l e

theorem setLoan_calm {k : Nat} {x : Loan} (l : Loan) {s : State} (h : s.loan k = some x) (ht : l.returnTag = x.returnTag) :
    Calm s (s.setLoan k l) :=
  setSlot_calm k _ s fun g _ e => by cases e; exact ht.trans (g x h)

/-- A change of one link that keeps its presence and its reservations, and only appends to what is placed. -/
theorem place_calm (l : Nat) (o : OutRecord) (s : State) : Calm s (place l o s) := by
  intro ⟨q1, q2, q3⟩
  have parts : (place l o s).records = s.records ∧ (place l o s).settings = s.settings ∧ (place l o s).waits = s.waits := by
    unfold place; split <;> exact ⟨rfl, rfl, rfl⟩
  refine ⟨⟨parts.1.trans q1, fun k x e => q2 k x ?_, fun b => ?_⟩, parts.2.2, place_grows l o s, fun m _ => ?_⟩
  · rwa [loan_place] at e
  · have := q3 b; unfold State.profile at this ⊢; rwa [parts.2.1]
  · unfold place
    split
    · by_cases e : l = m
      · subst e
        by_cases hl : l < s.links.length
        · rw [State.modLink, State.link_setLink_self _ _ _ hl]
          exact le_rfl
        · rw [State.modLink, State.setLink, List.set_eq_of_length_le (Nat.le_of_not_lt hl)]
      · rw [State.modLink, State.link_setLink_ne _ _ _ _ e]
    · exact le_rfl

/-- With no command record, changing one changes nothing. -/
theorem modRecord_calm (ref : CommandRef) (f : Command → Command) (s : State) : Calm s (s.modRecord ref f) := by
  intro q
  have e : s.modRecord ref f = s := by unfold State.modRecord; rw [q.1]; simp only [modifyFirst]; rw [← q.1]
  rw [e]
  exact Calm.refl s q

/-! ### Ends of loans -/

theorem oweScan_calm (s : State) : Calm s s.oweScan := .of_parts rfl rfl rfl rfl rfl
theorem setTwin_calm (t : Nat) (x : Option Twin) (s : State) : Calm s (s.setTwin t x) := .of_parts rfl rfl rfl rfl rfl
theorem modBay_calm (b : Nat) (f : Bay → Bay) (s : State) : Calm s (s.modBay b f) := .of_parts rfl rfl rfl rfl rfl
theorem setBayState_calm (b : Nat) (st : BayState) (s : State) : Calm s (setBayState b st s) := .of_parts rfl rfl rfl rfl rfl
theorem modChannel_calm (c : Nat) (f : Channel → Channel) (s : State) : Calm s (s.modChannel c f) :=
  .of_parts rfl rfl rfl rfl rfl

theorem freeTwinIfUnnamed_calm (t : Nat) (s : State) : Calm s (freeTwinIfUnnamed t s) := by
  unfold freeTwinIfUnnamed
  split
  · split
    · exact (setTwin_calm _ _ _).trans (oweScan_calm _)
    · exact .refl s
  · exact .refl s

theorem freeSlot_calm (k : Nat) (s : State) : Calm s (freeSlot k s) := by
  unfold freeSlot
  split
  · exact .refl s
  · have h : Calm s (s.setSlot k { s.slot k with loan := none }).oweScan :=
      (setSlot_calm k _ s fun _ _ e => by cases e).trans (oweScan_calm _)
    dsimp only
    split
    · exact h.trans (freeTwinIfUnnamed_calm _ _)
    · exact h

theorem placeLoanNotice_calm (k : Nat) (s : State) : Calm s (placeLoanNotice k s) := by
  unfold placeLoanNotice
  split
  · exact .refl s
  · rename_i l h
    dsimp only
    split
    · exact (place_calm _ _ _).trans (freeSlot_calm _ _)
    · refine (place_calm _ _ _).trans (setLoan_calm (x := l) _ ?_ ?_)
      · rw [loan_place]; exact h
      · rfl
    · exact .refl s

theorem offerLoanNotices_calm (n : Nat) (s : State) : Calm s (offerLoanNotices n s) :=
  eachSlot_calm _ (fun k s => by
    split
    · exact placeLoanNotice_calm k s
    · exact .refl s) s

theorem enterEnded_calm (k : Nat) (s : State) : Calm s (enterEnded k s) := by
  intro q
  unfold enterEnded
  split
  · exact Calm.refl s q
  · rename_i l h
    split
    · exact freeSlot_calm k s q
    · dsimp only
      split
      · rename_i t ht
        rw [q.2.1 k l h] at ht
        cases ht
      · refine ((setLoan_calm (x := l) _ h ?_).trans (offerLoanNotices_calm _ _)) q
        rfl

theorem endIfIdle_calm (k : Nat) (s : State) : Calm s (endIfIdle k s) := by
  unfold endIfIdle
  split
  · split
    · exact enterEnded_calm k s
    · exact .refl s
  · exact .refl s

theorem recordsOf_quiet {s : State} (q : s.quiet) (k : Nat) : s.recordsOf k = [] := by
  unfold State.recordsOf; rw [q.1]; rfl

theorem decideEnd_calm (k : Nat) (reason : EndReason) (s : State) : Calm s (decideEnd k reason s) := by
  intro q
  unfold decideEnd
  split
  · exact Calm.refl s q
  · rename_i l h
    -- the changed loan has no return tag either
    have set (x : Loan) (hx : x.returnTag = none ∨ x.returnTag = l.returnTag) : Calm s (s.setLoan k x).oweScan :=
      (setSlot_calm k _ s fun g _ e => by
        cases e
        exact hx.elim id fun hx => hx.trans (g l h)).trans (oweScan_calm _)
    split
    · dsimp only
      rw [recordsOf_quiet (set _ ?_ q).1]
      · refine ((set _ ?_).trans (endIfIdle_calm _ _)) q
        split
        · exact .inl rfl
        · exact .inr rfl
      · split
        · exact .inl rfl
        · exact .inr rfl
    · split
      · dsimp only
        rw [recordsOf_quiet (set _ ?_ q).1]
        · have fin (g : State → State) (hg : ∀ u, Calm u (g u)) :=
            ((set { l with endReason := some .linkLost, returnTag := none, notice := none } (.inl rfl)).trans (hg _)) q
          split
          · exact fin _ fun u => freeSlot_calm k u
          · exact fin _ fun u => endIfIdle_calm k u
        · exact .inl rfl
      · exact Calm.refl s q

theorem recompute_calm (k : Nat) (s : State) : Calm s (recompute k s) := by
  unfold recompute
  split
  · exact .refl s
  · dsimp only
    split
    · refine (setLoan_calm _ ‹s.loan k = _› ?_).trans (decideEnd_calm _ _ _)
      rfl
    · refine setLoan_calm _ ‹s.loan k = _› ?_
      rfl

theorem recomputeAgainst_calm (e : WaitEntry) (s : State) : Calm s (recomputeAgainst e s) := by
  unfold recomputeAgainst
  split
  · exact .refl s
  · refine eachSlot_calm _ (fun k s => ?_) s
    split
    · split
      · exact recompute_calm k s
      · exact .refl s
    · exact .refl s

theorem ringLeave_calm (b : Nat) (who : MemberKind) (s : State) : Calm s (ringLeave b who s) := modBay_calm _ _ _

/-! ### Moves of loans, copies that end, and handlings -/

theorem queueCommand_calm (b k : Nat) (ref : CommandRef) (s : State) : Calm s (queueCommand b k ref s) := by
  intro q
  unfold queueCommand
  split
  · exact Calm.refl s q
  · dsimp only
    rename_i l h
    have h : Calm s ((s.modRecord ref fun r => { r with state := .queued }).modBay b fun x =>
        { x with ring := joinRing k l.cls ref x.ring }) := (modRecord_calm _ _ _).trans (modBay_calm _ _ _)
    unfold hotTrigger
    dsimp only
    rw [if_neg fun c => c.1 ((h q).1.2.2 b)]
    exact h q

theorem carryOutMove_calm (k newBay : Nat) (newVia : Option Nat) (s : State) : Calm s (carryOutMove k newBay newVia s) := by
  unfold carryOutMove
  split
  · exact .refl s
  · rename_i l h
    dsimp only
    refine .trans (.trans ?_ (oweScan_calm _)) (offerLoanNotices_calm _ _)
    have first : Calm s ((ringLeave l.placedBay (.loan k) s).setLoan k
        { l with placedBay := newBay, viaTwin := newVia, move := none, notice := some .loanMoved }) := by
      refine (ringLeave_calm _ _ _).trans (setLoan_calm (x := l) _ ?_ ?_)
      · exact h
      · rfl
    split
    · exact (first.trans (foldl_calm _ (fun s ref => queueCommand_calm _ _ ref s) _ _)).trans (freeTwinIfUnnamed_calm _ _)
    · exact first.trans (foldl_calm _ (fun s ref => queueCommand_calm _ _ ref s) _ _)

theorem orderMove_calm (k newBay : Nat) (newVia : Option Nat) (reason : EndReason) (s : State) :
    Calm s (orderMove k newBay newVia reason s) := by
  unfold orderMove
  split
  · exact .refl s
  · split
    · exact .refl s
    split
    · exact decideEnd_calm _ _ _
    split
    · refine setLoan_calm _ ‹s.loan k = _› ?_
      rfl
    · exact carryOutMove_calm _ _ _ _

theorem clearMovesTo_calm (b : Nat) (s : State) : Calm s (clearMovesTo b s) :=
  eachSlot_calm _ (fun k s => by
    split
    · split
      · split
        · exact decideEnd_calm _ _ _
        · exact .refl s
      · exact .refl s
    · exact .refl s) s

theorem modTwin_calm (t : Nat) (f : Twin → Twin) (s : State) : Calm s (s.modTwin t f) := by
  unfold State.modTwin
  split
  · exact setTwin_calm _ _ _
  · exact .refl s

theorem moveToTarget_calm (t : Nat) (w : Twin) (reason : EndReason) (s : State) : Calm s (moveToTarget t w reason s) :=
  eachSlot_calm _ (fun k s => by
    split
    · split
      · exact orderMove_calm _ _ _ _ _
      · exact .refl s
    · exact .refl s) s

theorem retireAndMove_calm (t : Nat) (w : Twin) (reason : EndReason) (s : State) : Calm s (retireAndMove t w reason s) := by
  refine .trans (.trans ((modTwin_calm _ _ _).trans (oweScan_calm _)) (eachSlot_calm _ (fun k s => ?_) _))
    (freeTwinIfUnnamed_calm _ _)
  split
  · split
    · exact orderMove_calm _ _ _ _ _
    · exact .refl s
  · exact .refl s

theorem occur_calm (k : NoticeKind) (subject : Nat) (status : NoticeStatus) (s : State) :
    Calm s (occur k subject status s) :=
  .of_parts rfl rfl rfl rfl rfl

theorem channelFree_calm (c : Nat) (s : State) : Calm s ((giveBackChannel c s).setChannel c Channel.free) :=
  .of_parts rfl rfl rfl rfl rfl

theorem endCopy_calm (c : Nat) (s : State) : Calm s (endCopy c s) := by
  unfold endCopy
  dsimp only
  split
  · exact .refl s
  · exact (((channelFree_calm c s).trans (occur_calm _ _ _ _)).trans (setTwin_calm _ _ _)).trans (oweScan_calm _)

theorem decideCopyEnd_calm (t : Nat) (e : CopyEnd) (s : State) : Calm s (decideCopyEnd t e s) := by
  unfold decideCopyEnd
  split
  · exact .refl s
  · split
    · exact .refl s
    · rename_i w _ c _
      have h : Calm s (s.modChannel c fun x => { x with endStatus := some (CopyEnd.join x.endStatus e) }) :=
        modChannel_calm _ _ _
      dsimp only
      split
      · exact h.trans (endCopy_calm _ _)
      · exact (h.trans (ringLeave_calm _ _ _)).trans (endCopy_calm _ _)
      · refine (h.trans ?_).trans (endCopy_calm _ _)
        exact modBay_calm _ _ _
      all_goals exact h

theorem orphan_calm (t : Nat) (w : Twin) (reason : EndReason) (s : State) :
    Calm s ((moveToTarget t w reason s).modTwin t (fun w => { w with state := .orphan }) |>.oweScan) :=
  ((moveToTarget_calm _ _ _ _).trans (modTwin_calm _ _ _)).trans (oweScan_calm _)

theorem twinFault_calm (b : Nat) (s : State) : Calm s (twinFault b s) := by
  unfold twinFault
  split
  · exact .refl s
  split
  · exact .refl s
  split
  · exact .refl s
  split
  · exact decideCopyEnd_calm _ _ _
  · split
    · exact orphan_calm _ _ _ _
    · exact retireAndMove_calm _ _ _ _
  · split
    · exact orphan_calm _ _ _ _
    · exact retireAndMove_calm _ _ _ _
  · split
    · exact .refl s
    · exact (modTwin_calm _ _ _).trans (freeTwinIfUnnamed_calm _ _)

theorem twinDrain_calm (b : Nat) (s : State) : Calm s (twinDrain b s) := by
  unfold twinDrain
  split
  · exact .refl s
  split
  · exact .refl s
  split
  · exact .refl s
  split
  · exact decideCopyEnd_calm _ _ _
  · split
    · exact orphan_calm _ _ _ _
    · exact retireAndMove_calm _ _ _ _
  · split
    · exact (modTwin_calm _ _ _).trans (oweScan_calm _)
    · exact retireAndMove_calm _ _ _ _
  · split
    · exact .refl s
    · exact (modTwin_calm _ _ _).trans (freeTwinIfUnnamed_calm _ _)

/-- With no command record, the fault of a bay ends no command. -/
theorem faultUnit_calm (u : DiskUnit) (s : State) : Calm s (faultUnit u s) := by
  intro q
  unfold faultUnit
  split
  · rename_i ref
    have : s.record ref = none := by unfold State.record; rw [q.1]; rfl
    unfold faultCommand
    rw [this]
    exact Calm.refl s q
  · exact modChannel_calm _ _ _ q
  · exact modChannel_calm _ _ _ q
  · exact Calm.refl s q
  · exact Calm.refl s q

/-! ### Removal -/

/-- The removal of one entry from a quiet state, with its reservation. -/
theorem refuseEntry_quiet (e : WaitEntry) (reason : NodeReason) (s : State) (q : s.quiet) :
    (refuseEntry e reason s).quiet ∧ Grows s (refuseEntry e reason s) ∧
    (∀ l, l ≠ 0 → (s.link l).reserved ≤ ((refuseEntry e reason s).link l).reserved + if e.node = l then 1 else 0) ∧
    ((s.link e.node).presence = true → 0 < (s.link e.node).reserved →
      (refuseEntry e reason s).HasPlaced e.node { tag := e.tag, record := .refused reason }) := by
  have parts : (placeReserved e.node { tag := e.tag, record := .refused reason } s).quiet := by
    refine ⟨?_, fun k x h => q.2.1 k x ?_, fun b => ?_⟩
    · unfold placeReserved; split <;> exact q.1
    · rwa [loan_placeReserved] at h
    · unfold placeReserved; split <;> exact q.2.2 b
  obtain ⟨q', _, g, r⟩ := ((recomputeAgainst_calm e _).trans (oweScan_calm _)) parts
  refine ⟨q', (placeReserved_grows _ _ s).trans g, fun l h0 => ?_, fun hp hr => g.hasPlaced ?_⟩
  · refine le_trans ?_ (Nat.add_le_add_right (r l h0) _)
    unfold placeReserved
    split
    · by_cases h : e.node = l
      · subst h
        by_cases hl : e.node < s.links.length
        · rw [State.modLink, State.link_setLink_self _ _ _ hl, if_pos rfl]
          exact Nat.le_of_eq (Nat.sub_add_cancel ‹_ ∧ _›.2).symm
        · rw [State.modLink, State.setLink, List.set_eq_of_length_le (Nat.le_of_not_lt hl)]; exact Nat.le_add_right _ _
      · rw [State.modLink, State.link_setLink_ne _ _ _ _ h]; exact Nat.le_add_right _ _
    · exact Nat.le_add_right _ _
  · unfold State.HasPlaced placeReserved
    rw [if_pos ⟨hp, hr⟩, State.modLink, State.link_setLink_self _ _ _ (link_lt_of_presence hp)]
    exact List.mem_append_right _ (List.mem_singleton.mpr rfl)

/-- R37, R38: the entries of a list are removed from a quiet state: each whose node is present, and whose node has a
reservation for each of its entries in the list, is answered REFUSED. -/
theorem foldl_refuseEntry (reason : NodeReason) (es : List WaitEntry) (s : State) (q : s.quiet) :
    let t := es.foldl (fun s e => refuseEntry e reason s) s
    t.quiet ∧ Grows s t ∧
    ∀ e ∈ es, e.node ≠ 0 → (s.link e.node).presence = true → es.countP (fun x => x.node == e.node) ≤ (s.link e.node).reserved →
      t.HasPlaced e.node { tag := e.tag, record := .refused reason } := by
  induction es generalizing s with
  | nil => exact ⟨q, .refl s, fun e h => by cases h⟩
  | cons a es ih =>
    obtain ⟨q', g, r, h⟩ := refuseEntry_quiet a reason s q
    obtain ⟨q'', g', h'⟩ := ih _ q'
    refine ⟨q'', g.trans g', fun e he h0 hp hc => ?_⟩
    rcases List.mem_cons.mp he with rfl | he
    · refine g'.hasPlaced (h hp ?_)
      rw [List.countP_cons, if_pos (by simp)] at hc
      omega
    · refine h' e he h0 (by rw [(g e.node).1]; exact hp) ?_
      have := r e.node h0
      rw [List.countP_cons] at hc
      simp only [beq_iff_eq] at hc
      split_ifs at hc this with ha <;> omega

/-- R37, R38: what the removal of bay `b`'s entries leaves, from a quiet state. -/
theorem removeWaitsOn_quiet (b : Nat) (reason : NodeReason) (s : State) (q : s.quiet) :
    (removeWaitsOn b reason s).quiet ∧ Grows s (removeWaitsOn b reason s) ∧
    ∀ e ∈ s.waits, e.bay = b → e.node ≠ 0 → (s.link e.node).presence = true → s.waitCount e.node ≤ (s.link e.node).reserved →
      (removeWaitsOn b reason s).HasPlaced e.node { tag := e.tag, record := .refused reason } := by
  unfold removeWaitsOn removeWaits
  dsimp only
  split
  · rename_i h
    refine ⟨q, .refl s, fun e he hb => ?_⟩
    have : e ∈ s.waits.filter (fun x => x.bay == b) := List.mem_filter.mpr ⟨he, by simpa using hb⟩
    rw [List.isEmpty_iff.mp h] at this
    cases this
  · obtain ⟨q', g, h⟩ := foldl_refuseEntry reason (s.waits.filter fun e => e.bay == b)
      { s with waits := s.waits.filter fun e => !(e.bay == b) } ⟨q.1, q.2.1, q.2.2⟩
    refine ⟨q', fun l => g l, fun e he hb h0 hp hc => h e (List.mem_filter.mpr ⟨he, by simpa using hb⟩) h0 hp ?_⟩
    refine le_trans ?_ hc
    exact List.Sublist.countP_le List.filter_sublist

/-- R37, R38: a handling that comes calmly to the removal of bay `b`'s entries, and then only places more. -/
theorem refusedOn_of {s u t : State} {b : Nat} {reason : NodeReason} (before : Calm s u)
    (after : (removeWaitsOn b reason u).quiet → Grows (removeWaitsOn b reason u) t) : s.refusedOn b reason t := by
  intro q e he hb hn hp hc
  have h0 : e.node ≠ 0 := fun h => absurd (h ▸ hn) (by decide)
  obtain ⟨q', w, g, r⟩ := before q
  obtain ⟨q'', _, h⟩ := removeWaitsOn_quiet b reason u q'
  refine (after q'').hasPlaced (h e (w ▸ he) hb h0 ((g e.node).1.trans hp) ?_)
  refine le_trans ?_ (r e.node h0)
  unfold State.waitCount at hc ⊢
  rwa [w]

theorem refusedOn_grows {s t u : State} {b : Nat} {reason : NodeReason} (h : s.refusedOn b reason t) (g : Grows t u) :
    s.refusedOn b reason u :=
  fun q e he hb hn hp hc => g.hasPlaced (h q e he hb hn hp hc)

theorem refusedOn_calm {s t u : State} {b : Nat} {reason : NodeReason} (c : Calm s t) (h : t.refusedOn b reason u) :
    s.refusedOn b reason u := by
  intro q e he hb hn hp hc
  have h0 : e.node ≠ 0 := fun h => absurd (h ▸ hn) (by decide)
  obtain ⟨q', w, g, r⟩ := c q
  refine h q' e (w ▸ he) hb hn ((g e.node).1.trans hp) (le_trans ?_ (r e.node h0))
  unfold State.waitCount at hc ⊢
  rwa [w]

/-! ### The handlings that remove a bay's entries -/

/-- The end of a handling only places more. -/
theorem finish_grows (s : State) : Grows s (finish s) := (finish_chain s).grows

/-- The supervisor's link is no node's: a change of it that keeps its presence and its placed records is calm. -/
theorem setLink0_calm (x : Link) (s : State) (hp : x.presence = (s.link 0).presence) (ho : (s.link 0).placed <+: x.placed) :
    Calm s (s.setLink 0 x) := by
  intro ⟨q1, q2, q3⟩
  refine ⟨⟨q1, q2, q3⟩, rfl, fun l => ?_, fun l hl => ?_⟩
  · by_cases e : 0 = l
    · subst e
      by_cases hl : 0 < s.links.length
      · rw [State.link_setLink_self _ _ _ hl]; exact ⟨hp, ho⟩
      · rw [State.setLink, List.set_eq_of_length_le (Nat.le_of_not_lt hl)]; exact ⟨rfl, List.prefix_rfl⟩
    · rw [State.link_setLink_ne _ _ _ _ e]; exact ⟨rfl, List.prefix_rfl⟩
  · rw [State.link_setLink_ne _ _ _ _ (Ne.symm hl)]

theorem refusedOn_removed {s u : State} {b : Nat} {reason : NodeReason} (before : Calm s u) :
    s.refusedOn b reason (removeWaitsOn b reason u) :=
  refusedOn_of before fun _ => .refl _

theorem modBay_grows (b : Nat) (f : Bay → Bay) (s : State) : Grows s (s.modBay b f) := .of_links rfl
theorem leavePool_grows (w : WaiterKind) (s : State) : Grows s (leavePool w s) := .of_links rfl
theorem oweScan_grows (s : State) : Grows s s.oweScan := .of_links rfl
theorem enterStopping_grows (b : Nat) (s : State) : Grows s (enterStopping b s) := .of_links rfl

theorem drainTest_grows (b : Nat) (s : State) : Grows s (drainTest b s) := by
  unfold drainTest
  split
  · exact enterStopping_grows b s
  · exact .refl s

theorem queueChunkRead_grows (c : Nat) (s : State) : Grows s (queueChunkRead c s) := by
  unfold queueChunkRead
  split <;> exact .of_links rfl

theorem faultHandling_refusedOn (b : Nat) (cause : FaultCause) (s : State) :
    s.refusedOn b .noBay (faultHandling b cause s) := by
  unfold faultHandling
  dsimp only
  refine refusedOn_grows (refusedOn_removed ?_)
    (((modBay_grows _ _ _).trans (leavePool_grows _ _)).trans (oweScan_grows _))
  refine .trans (.trans (.trans (.trans (.trans ((modBay_calm _ _ _).trans (setBayState_calm _ _ _))
    ((modBay_calm _ _ _).trans (foldl_calm _ ?_ _ _))) (clearMovesTo_calm _ _)) (twinFault_calm _ _))
    (eachSlot_calm _ ?_ _)) (eachSlot_calm _ ?_ _)
  · intro s u
    split
    · exact faultUnit_calm _ _
    · exact .refl s
  · intro k s
    split
    · split
      · split
        · split
          · exact carryOutMove_calm _ _ _ _
          · exact decideEnd_calm _ _ _
        · exact .refl s
      · exact .refl s
    · exact .refl s
  · intro k s
    split
    · split
      · exact decideEnd_calm _ _ _
      · exact .refl s
    · exact .refl s

theorem spinFault_refusedOn (b : Nat) (cause : FaultCause) (s : State) :
    s.refusedOn b .noBay (spinFault b cause s) :=
  refusedOn_grows (refusedOn_removed ((modBay_calm _ _ _).trans (setBayState_calm _ _ _))) (oweScan_grows _)

theorem pulledAwaited_refusedOn (b : Nat) (s : State) : s.refusedOn b .noBay (pulledAwaited b s) :=
  refusedOn_grows (refusedOn_removed ((modBay_calm _ _ _).trans (setBayState_calm _ _ _))) (oweScan_grows _)

theorem drainHandling_refusedOn (b : Nat) (s : State) : s.refusedOn b .bayReleasing (drainHandling b s) := by
  unfold drainHandling
  dsimp only
  have h (u : State) : Calm u ((twinDrain b (clearMovesTo b u)).eachSlot fun k s => match s.loan k with
      | some l => if l.placedOn b ∧ l.move = none then decideEnd k .bayReleased s else s
      | none => s) := by
    refine .trans ((clearMovesTo_calm _ _).trans (twinDrain_calm _ _)) (eachSlot_calm _ (fun k s => ?_) _)
    split
    · split
      · exact decideEnd_calm _ _ _
      · exact .refl s
    · exact .refl s
  refine refusedOn_of (setBayState_calm b .draining s) fun q => (h _ q).2.2.1.trans ?_
  exact (oweScan_grows _).trans (drainTest_grows _ _)

theorem enterReleased_calm (b : Nat) (s : State) : Calm s (enterReleased b s) := .of_parts rfl rfl rfl rfl rfl
theorem enterStopping_calm (b : Nat) (s : State) : Calm s (enterStopping b s) := .of_parts rfl rfl rfl rfl rfl
theorem leaveSpinQueue_calm (b : Nat) (s : State) : Calm s (leaveSpinQueue b s) := .of_parts rfl rfl rfl rfl rfl

/-- R136: a release from SPIN_WAIT or SPINNING answers NO_BAY; R137: one from READY, BAY_RELEASING. -/
theorem releaseBay_refusedOn (b : Nat) (s : State) (h : (s.bay b).state = .spinWait ∨ (s.bay b).state = .spinning) :
    s.refusedOn b .noBay (releaseBay b s) := by
  unfold releaseBay
  rcases h with h | h <;> rw [h]
  · exact refusedOn_grows (refusedOn_removed ((leaveSpinQueue_calm _ _).trans (enterReleased_calm _ _))) (oweScan_grows _)
  · exact refusedOn_grows (refusedOn_removed (enterStopping_calm _ _)) (oweScan_grows _)

theorem releaseBay_ready (b : Nat) (s : State) (h : (s.bay b).state = .ready) :
    s.refusedOn b .bayReleasing (releaseBay b s) := by
  unfold releaseBay
  rw [h]
  exact drainHandling_refusedOn b s

theorem setChannel_calm (c : Nat) (x : Channel) (s : State) : Calm s (s.setChannel c x) := .of_parts rfl rfl rfl rfl rfl

theorem startCopy_refusedOn (source target first last : Nat) (s : State) :
    s.refusedOn target .twinTarget (startCopy source target first last s) := by
  unfold startCopy
  dsimp only
  exact refusedOn_grows (refusedOn_removed ((setTwin_calm _ _ _).trans (setChannel_calm _ _ _)))
    ((oweScan_grows _).trans (queueChunkRead_grows _ _))

end Sys2Proof.Machine
end

