-- ==== Sys2Proof/Laws/Ring.lean ====
section
/-! SUPPORT. The ring step reaches a dispatch whenever the ring is not empty (R111). -/

namespace Sys2Proof.Machine

@[simp] theorem ringStep_nil (quantum : Nat) (cost : Member → Nat) (fuel : Nat) : ringStep quantum cost fuel [] = none := by
  cases fuel <;> rfl

/-- The members before the pointer's next round either dispatch or are passed over, each keeping its place behind the others. -/
theorem ringStep_passes (quantum : Nat) (cost : Member → Nat) (fuel : Nat) : ∀ (front back : List Member),
    (∀ passed : List Member, passed.length = front.length → (ringStep quantum cost fuel (back ++ passed)).isSome = true) →
    (ringStep quantum cost (fuel + front.length) (front ++ back)).isSome = true
  | [], back, h => by simpa using h [] rfl
  | m :: front, back, h => by
    show (ringStep quantum cost (fuel + front.length + 1) (m :: (front ++ back))).isSome = true
    unfold ringStep
    dsimp only
    generalize (if m.visited then m.credit else m.credit + (m.cls.weight * quantum : Nat)) = credit
    split
    · rfl
    · split
      · rfl
      · rw [List.append_assoc]
        refine ringStep_passes quantum cost fuel front _ fun passed hp => ?_
        rw [List.append_assoc]
        exact h _ (by simp [hp])

/-- R111: the pointer member, which lacks at most `n` credit, dispatches at its visit `n + 1` if no other member does first. -/
theorem ringStep_reaches (quantum : Nat) (cost : Member → Nat) (hq : 1 ≤ quantum)
    (hc : ∀ m n : Member, m.who = n.who → m.queued = n.queued → cost m = cost n) :
    ∀ (n : Nat) (m : Member) (rest : List Member),
      (cost m - m.credit).toNat + (if m.visited then 1 else 0) ≤ n →
      (ringStep quantum cost ((rest.length + 1) * (n + 1)) (m :: rest)).isSome = true := by
  intro n
  induction n with
  | zero =>
    intro m rest h
    rw [Nat.mul_one]
    unfold ringStep
    dsimp only
    cases hv : m.visited
    · simp only [hv, Bool.false_eq_true, if_false] at h ⊢
      rw [if_pos (by omega)]; rfl
    · simp [hv] at h
  | succ n ih =>
    intro m rest h
    have hw : 1 ≤ m.cls.weight * quantum := Nat.mul_pos (by cases m.cls <;> decide) hq
    rw [show (rest.length + 1) * (n + 1 + 1) = (rest.length + 1) * (n + 1) + rest.length + 1 by
      rw [Nat.mul_succ (rest.length + 1) (n + 1)]; rfl]
    unfold ringStep
    dsimp only
    generalize hg : (if m.visited then m.credit else m.credit + (m.cls.weight * quantum : Nat)) = credit
    split
    · rfl
    · split
      · rfl
      · rename_i hlow _
        refine ringStep_passes quantum cost _ rest _ fun passed hp => ?_
        rw [← hp]
        refine ih _ passed ?_
        rw [hc { m with credit := _, visited := false } m rfl rfl]
        dsimp only
        cases hv : m.visited <;> simp only [hv, Bool.false_eq_true, if_false, if_true] at h hg ⊢ <;> omega

/-- R111: with a quantum of 1 or more, the ring step over a ring that is not empty reaches a dispatch within its bound. -/
theorem ringStep_isSome {quantum : Nat} {cost : Member → Nat} {ring : List Member} (hq : 1 ≤ quantum)
    (hc : ∀ m n : Member, m.who = n.who → m.queued = n.queued → cost m = cost n) (hr : ring ≠ []) :
    (ringStep quantum cost (ringBound cost ring) ring).isSome = true := by
  obtain ⟨m, rest, rfl⟩ := List.exists_cons_of_ne_nil hr
  exact ringStep_reaches quantum cost hq hc _ m rest (by split <;> omega)

/-- A member's cost rests on who it is and on what it has queued alone. -/
theorem State.memberCost_congr (s : State) (b : Nat) {m n : Member} (hw : m.who = n.who) (hk : m.queued = n.queued) :
    s.memberCost b m = s.memberCost b n := by
  simp only [State.memberCost, hw, hk]

theorem State.quantum_pos (s : State) (b : Nat) : 1 ≤ s.quantum b := by
  unfold State.quantum
  split <;> omega

/-- R111: the ring makes a choice unless it is empty. -/
theorem ringChoice_eq_none_iff (s : State) (b : Nat) : s.ringChoice b = none ↔ (s.bay b).ring = [] := by
  constructor
  · intro h
    by_contra hr
    have := ringStep_isSome (s.quantum_pos b) (fun m n => s.memberCost_congr b (m := m) (n := n)) hr
    rw [← State.ringChoice, h] at this
    cases this
  · intro h
    simp only [State.ringChoice, h, ringStep_nil]

end Sys2Proof.Machine
end

