-- ==== Sys2Proof/Tests/Slice0.lean ====
section
/-! SUPPORT. Tests: the smoke test of well-formedness, worked examples of spec/, and, for each statement of
Certificates/Slice0/Obligations.lean, states and operands that meet the hypotheses of its clauses. -/

namespace Sys2Proof.Tests

open Sys2Proof.Machine

/-! ### Ill-formed commands, one for each check of Sys2Proof/WellFormed.lean -/

theorem test_ill_formed_node : Instr.wellFormed (.borrow 0) = false ∧ Instr.wellFormed (.cancel 17) = false := by decide
theorem test_ill_formed_link : Instr.wellFormed (.unknownKindFrame 17) = false := by decide
theorem test_ill_formed_bay : Instr.wellFormed (.dispatchPoint 24) = false := by decide
theorem test_ill_formed_slot : Instr.wellFormed (.idleClockExpiry 96) = false := by decide
theorem test_ill_formed_channel : Instr.wellFormed (.copyEnd 2) = false := by decide
theorem test_ill_formed_tag : Instr.wellFormed (.segmentBoundary 1 0) = false ∧
    Instr.wellFormed (.dataGapExpiry 1 256) = false := by decide
theorem test_ill_formed_capacity : Instr.wellFormed (.identifyAnswer 0 0 4294967296) = false := by decide
theorem test_ill_formed_block : Instr.wellFormed (.readBlockAnswer 0 0 (.ok [0#8])) = false := by decide
theorem test_ill_formed_length : Instr.wellFormed (.overlongFrameDiscard 0 4104) = false ∧
    Instr.wellFormed (.overlongFrameDiscard 0 65536) = false := by decide
theorem test_refused_bay : exec (.drainComplete 24) State.reset = .refused .noSuchBay := by rfl
theorem test_no_word_spells_a_command : decodeTableWord 8 0x10 = none := by rfl

/-! ### Worked examples of spec/ -/

/-- R169: the check value over 0x31..0x39. -/
theorem test_crc_check_value :
    crc16 [0x31#8, 0x32#8, 0x33#8, 0x34#8, 0x35#8, 0x36#8, 0x37#8, 0x38#8, 0x39#8] = 0x29B1 := by decide +kernel

/-- Table 9-4 (R179): the codes of fields that only the supervisor's records carry. -/
theorem test_codes :
    [NodeReason.noBay, .conflict, .withdrawn].map NodeReason.code = [0x01, 0x09, 0x0D] ∧
    [SupReason.noLoan, .noChannel, .busy].map SupReason.code = [0x01, 0x09, 0x0D] ∧
    [BayState.empty, .ready, .faulted].map BayState.code = [0x01, 0x04, 0x08] ∧
    [none, some FaultCause.noSpin, some .pulled].map (optCode FaultCause.code) = [0x00, 0x01, 0x04] ∧
    [none, some OpKind.spinUp, some .spinDown].map (optCode OpKind.code) = [0x00, 0x01, 0x06] ∧
    [none, some CopyEnd.halted, some .aborted].map (optCode CopyEnd.code) = [0x00, 0x03, 0x04] ∧
    [TwinState.copying, .orphan].map TwinState.code = [0x01, 0x04] ∧
    [Phase.none, .writing].map Phase.code = [0x00, 0x05] := by decide

/-- Tables 3-1, 3-2 and 3-3. -/
theorem test_hold_limits :
    [0, 3, 20, 40].map (holdLimitOf 1500 200) = [1500, 857, 250, 200] ∧
    [0, 1, 4, 16, 36].map (holdLimitOf 500 100) = [500, 400, 250, 100, 100] ∧
    [0, 4, 64].map (holdLimitOf 100 300) = [100, 100, 100] := by decide

set_option Elab.async false

/-! ### States for the witnesses

Each `witness_<Name>` shows, for every clause of the statement `<Name>`, operands and a small state that meet the
hypotheses of that clause together. -/

/-- Every link present with its far ready line high; bays 0 and 1 READY with 100 blocks, the others EMPTY; no notice. -/
def ready : Bay := { Bay.initial with presence := true, state := .ready, capacity := some 100 }
def shelf : State :=
  { State.reset with
    links := List.replicate 17 { Link.initial with presence := true, farReady := true }
    bays := [ready, ready] ++ List.replicate 22 Bay.initial
    notices := { State.reset.notices with cause := State.reset.notices.bay } }

/-- A frame, and a state whose link `l` has it at the head of its inbound queue. -/
def fr (kind tag : Nat) (body : List Nat) : Frame := { kind := kind, tag := tag, body := body.map byte }
def asks (l : Nat) (f : Frame) (s : State) : State := s.modLink l fun x => { x with inbound := [f] }

/-- Node 1's loan of blocks 0..49 of bay 0 in slot 0, issue 1. -/
def loan : Loan :=
  { borrower := 1, askedBay := 0, placedBay := 0, viaTwin := none, kind := .keep, cls := .normal, range := some ⟨0, 49⟩
    state := .active, endReason := none, holdBase := 500, holdLimit := 500, idle := 0, commands := 0, notice := none
    returnTag := none, move := none }
def id0 : LoanId := { slot := 0, issue := 1 }
def lent (l : Loan) (s : State) : State := s.setSlot 0 { issue := 1, loan := some l }

/-- A READ of blocks 10 and 11 under that loan, with tag 7, and a state that holds such a record. -/
def cmd : Command :=
  { node := 1, tag := 7, loan := id0, kind := .read, first := 10, count := 2, segSize := 0, total := 0, delivered := 0
    segFirst := 10, state := .queued, held := 0, done := 0, nextIndex := 0, dataGap := 0, gapTimer := 0, stop := false
    carry := 0, closing := none, outcome := none, replied := false, gathered := [] }
def ref7 : CommandRef := { node := 1, tag := 7 }
def member : Member := { who := .loan 0, cls := .normal, credit := 0, visited := false, queued := [ref7] }
def runs (r : Command) (s : State) : State :=
  { (lent { loan with commands := 1 } s).modLink 1 (fun x => { x with reserved := 1 }) with
    records := [r], poolFree := 384 - r.held }
/-- The READ is in service on bay 0: `op` is in progress, numbered 5. -/
def serves (r : Command) (op : DiskOp) (s : State) : State :=
  (runs r s).modBay 0 fun x => { x with service := some (.command ref7), op := some op, opNumber := 5, opLimit := 200 }

/-- A state whose outbound queue of link `l` is full, one in which link `l` sends `o`, and a waiting request. -/
def full (l : Nat) (s : State) : State :=
  s.modLink l fun x => { x with placed := List.replicate 64 { tag := 0, record := .restarted l .reset } }
def sends (l : Nat) (o : OutRecord) (s : State) : State := s.modLink l fun x => { x with placed := [o], sending := true }
def waiter : WaitEntry :=
  { node := 2, tag := 9, bay := 0, kind := .keep, cls := .normal, range := none, arrival := 0, masked := false }
def waits (e : WaitEntry) (s : State) : State :=
  { s.modLink e.node (fun x => { x with reserved := 1 }) with waits := [e], arrival := 1 }
def bayIn (b : Nat) (st : BayState) (s : State) : State := s.modBay b fun x => { x with state := st, presence := true }
/-- The hot trigger of bay 0 fires at `n` queued commands, for a copy of blocks 0..63 to bay 1. -/
def hotProfile (n : Nat) : Profile := { Profile.default with hotThreshold := n, spare := some 1, hotFirst := 0, hotLast := 63 }
def hot (n : Nat) (s : State) : State :=
  { s with settings := { s.settings with profiles := hotProfile n :: List.replicate 23 Profile.default } }
/-- A twin of bay 0's blocks 0..63 on bay 1, and a copy that makes it by channel 0. -/
def twin : Twin :=
  { source := 0, target := 1, first := 0, last := 63, state := .live, channel := none, next := 64, retiring := false }
def copying : State → State := fun s =>
  { s.setTwin 0 (some { twin with state := .copying, channel := some 0, next := 0 }) with
    channels := [{ Channel.free with busy := true, phase := .queued, chunkCount := 32 }, Channel.free] }

/-! What the hypotheses come to, as decidable propositions. -/

theorem canTake_iff (s : State) (l kind needs : Nat) (f : Frame) : s.CanTake l kind needs f ↔
    s.scanDue = false ∧ (s.link l).inbound.head? = some f ∧ f.kind = kind ∧ (s.link l).presence = true ∧
    (s.link l).heldWrite = false ∧ s.canReserve l needs = true :=
  ⟨fun h => ⟨h.settled, h.head, h.isKind, h.presence, h.notHeld, h.room⟩,
   fun ⟨a, b, c, d, e, f⟩ => ⟨a, b, c, d, e, f⟩⟩

theorem shaped_iff (s : State) : s.Shaped ↔
    s.links.length = 17 ∧ s.loans.length = 96 ∧ s.bays.length = 24 ∧ s.channels.length = 2 ∧ s.twins.length = 6 ∧
    s.settings.profiles.length = 24 ∧ s.settings.nodeTable.length = 16 :=
  ⟨fun h => ⟨h.links, h.loans, h.bays, h.channels, h.twins, h.profiles, h.nodeTable⟩,
   fun ⟨a, b, c, d, e, f, g⟩ => ⟨a, b, c, d, e, f, g⟩⟩

theorem loan_lt {s : State} {k : Nat} {l : Loan} (h : s.loan k = some l) : k < s.loans.length := by
  by_contra hk
  simp [State.loan, State.slot, List.getD_eq_getElem?_getD, List.getElem?_eq_none (Nat.le_of_not_lt hk)] at h

theorem forall_loan (s : State) (p : Nat → Loan → Prop) :
    (∀ k l, s.loan k = some l → p k l) ↔ ∀ k < s.loans.length, ∀ l ∈ s.loan k, p k l :=
  ⟨fun h k _ l e => h k l e, fun h k l e => h k (loan_lt e) l e⟩

theorem forall_loan₁ (s : State) (a : Nat → Prop) (p : Nat → Loan → Prop) :
    (∀ k l, a k → s.loan k = some l → p k l) ↔ ∀ k < s.loans.length, ∀ l ∈ s.loan k, a k → p k l :=
  ⟨fun h k _ l e a => h k l a e, fun h k l a e => h k (loan_lt e) l e a⟩

theorem forall_loan₂ (s : State) (a b : Nat → Prop) (p : Nat → Loan → Prop) :
    (∀ k l, a k → b k → s.loan k = some l → p k l) ↔ ∀ k < s.loans.length, ∀ l ∈ s.loan k, a k → b k → p k l :=
  ⟨fun h k _ l e a b => h k l a b e, fun h k l a b e => h k (loan_lt e) l e a b⟩

theorem quiet_iff (s : State) : s.quiet ↔
    s.records = [] ∧ (∀ k < s.loans.length, ∀ l ∈ s.loan k, l.returnTag = none) ∧
    ∀ p ∈ s.settings.profiles, p.hotThreshold = 0 := by
  simp only [State.quiet, forall_loan]
  refine and_congr_right' (and_congr_right' ⟨fun h p hp => ?_, fun h b => ?_⟩)
  · obtain ⟨b, hb, rfl⟩ := List.getElem_of_mem hp
    simpa [State.profile, List.getD_eq_getElem?_getD, hb] using h b
  · rw [State.profile, List.getD_eq_getElem?_getD]
    cases hp : s.settings.profiles[b]? with
    | none => rfl
    | some p => exact h p (List.mem_of_getElem? hp)

theorem hotQuiet_iff (s : State) (b : Nat) : s.hotQuiet b ↔
    ((s.bay b).ring.map fun m => m.queued.length).sum + 1 ≠ (s.profile b).hotThreshold ∨
    (s.profile b).hotThreshold = 0 ∨ s.settings.level = .lockdown ∨ (s.profile b).spare = none ∨
    ∃ target ∈ (s.profile b).spare,
      (s.copyRefusal b target (s.profile b).hotFirst (s.profile b).hotLast).isSome = true := by
  simp only [State.hotQuiet, Option.isSome_iff_exists, Option.mem_def, exists_and_left]

theorem endsAtOnce_iff (r : Command) (st : Status) : (∃ out bay, r.endsAtOnce st out bay) ↔
    (r.kind ≠ .stream ∧ r.state = .queued) ∨ (r.kind = .write ∧ r.state = .gathering) ∨
    (r.kind = .stream ∧ r.state = .queued ∧ r.held = 0) := by
  constructor
  · rintro ⟨out, bay, ⟨a, b, -, -⟩ | ⟨a, b, -, -⟩ | ⟨a, b, c, -, -⟩⟩
    · exact .inl ⟨a, b⟩
    · exact .inr (.inl ⟨a, b⟩)
    · exact .inr (.inr ⟨a, b, c⟩)
  · rintro (⟨a, b⟩ | ⟨a, b⟩ | ⟨a, b, c⟩)
    · exact ⟨_, _, .inl ⟨a, b, rfl, rfl⟩⟩
    · exact ⟨_, _, .inr (.inl ⟨a, b, rfl, rfl⟩)⟩
    · exact ⟨_, _, .inr (.inr ⟨a, b, c, rfl, rfl⟩)⟩

theorem witness_StepRunsFront :
    (let s : State := shelf
     s.pending = []) := by
  decide +kernel

theorem witness_FrameArrives :
    (let s : State := shelf
     isLink 16 = true ∧ 255 < 256 ∧ (List.replicate 4104 0xA5#8).length ≤ Config.bodyMax ∧
     (s.link 16).presence = true ∧ (s.link 16).receiver = .hunting ∧ 0xA5#8 ∉ [0x00#8] ∧
     (s.link 16).inbound.length < Config.inbound) ∧
    (let s : State := shelf.modLink 0 fun x => { x with inbound := List.replicate 8 (fr kindReport 1 [4, 0]) }
     isLink 0 = true ∧ (List.nil : List Byte).length ≤ Config.bodyMax ∧ (s.link 0).presence = true ∧
     (s.link 0).receiver = .hunting ∧ 0xA5#8 ∉ ([] : List Byte) ∧ (s.link 0).inbound.length = Config.inbound) := by
  refine ⟨?_, ?_⟩ <;> decide +kernel

theorem witness_BadFramesRejected :
    (let s : State := shelf
     isLink 1 = true ∧ (s.link 1).presence = true ∧ (s.link 1).receiver = .hunting ∧ 0xA5#8 ∉ ([] : List Byte) ∧
     [0#8, 0#8].length = 2 ∧ [0#8, 0#8] ≠ be16 (crc16 (be16 0 ++ [0x19#8, 1#8] ++ []))) ∧
    (let s : State := shelf
     isLink 1 = true ∧ Config.bodyMax < 4105 ∧ 65535 ≤ 65535 ∧ (s.link 1).presence = true ∧
     (s.link 1).receiver = .hunting) ∧
    (let s : State := shelf.modLink 1 fun x => { x with receiver := .inFrame [] }
     (s.link 1).presence = true ∧ (s.link 1).receiver = .inFrame []) ∧
    (let f : Frame := fr 0x40 0 []
     let s : State := asks 1 f shelf
     isLink 1 = true ∧ s.CanTake 1 f.kind 1 f ∧ kindTakenOn 1 f.kind = false) ∧
    (let f : Frame := fr 0x4E 255 [1]
     let s : State := asks 0 f shelf
     isLink 0 = true ∧ s.CanTake 0 f.kind 1 f ∧ kindTakenOn 0 f.kind = false) := by
  simp only [canTake_iff]
  refine ⟨?_, ?_, ?_, ?_, ?_⟩ <;> decide +kernel

theorem witness_RecordSentFreesEntry :
    (let o : OutRecord := { tag := 3, record := .saved 7 }
     let s : State := sends 0 o shelf
     isLink 0 = true ∧ s.Settled ∧ (s.link 0).sending = true ∧ (s.link 0).placed = [o]) ∧
    (let o : OutRecord := { tag := 7, record := .data 10 0 [] }
     let r : Command := { cmd with state := .delivering, held := 1, done := 1, outcome := none }
     let s : State := sends 1 o (runs r shelf)
     isNode 1 = true ∧ s.Settled ∧ (s.link 1).sending = true ∧ (s.link 1).placed = [o] ∧
     s.record { node := 1, tag := o.tag } = some r ∧ 1 ≤ r.held ∧ r.replied = false) ∧
    (let o : OutRecord := { tag := 7, record := .data 10 0 [] }
     let r : Command := { cmd with state := .delivering, held := 2, done := 2, outcome := some .ok, replied := true }
     let s : State := sends 1 o (runs r shelf)
     isNode 1 = true ∧ s.Settled ∧ (s.link 1).sending = true ∧ (s.link 1).placed = [o] ∧
     s.record { node := 1, tag := o.tag } = some r ∧ 2 ≤ r.held ∧ r.replied = true) ∧
    (let o : OutRecord := { tag := 7, record := .data 11 1 [] }
     let r : Command := { cmd with state := .delivering, held := 1, done := 2, outcome := some .ok, replied := true }
     let s : State := sends 1 o (runs r shelf)
     isNode 1 = true ∧ s.Settled ∧ (s.link 1).sending = true ∧ (s.link 1).placed = [o] ∧
     s.record { node := 1, tag := o.tag } = some r ∧ r.held = 1 ∧ r.replied = true ∧
     s.loan r.loan.slot = some { loan with commands := 1 }) ∧
    (isLink 16 = true) := by
  simp only [State.Settled]
  refine ⟨?_, ?_, ?_, ?_, ?_⟩ <;> decide +kernel

theorem witness_NodePresenceFallLosesNode :
    (let s : State := runs cmd shelf
     isNode 1 = true ∧ s.Shaped ∧ (s.link 1).presence = true) := by
  simp only [shaped_iff]
  decide +kernel

theorem witness_NodePresenceRisePlacesRestarted :
    (let s : State := State.reset
     isNode 16 = true ∧ 16 < s.links.length ∧ (s.link 16).presence = false ∧ (s.link 16).placed = [] ∧
     (s.link 16).reserved = 0 ∧ (s.link 16).sending = false) := by
  decide +kernel

theorem witness_SupervisorPresenceChanges :
    (let s : State := { shelf with saving := some { image := [], tag := some 1, check := 0, ticks := 0 } }
     (s.link 0).presence = true) ∧
    (let s : State := State.reset
     (s.link 0).presence = false) ∧
    (let s : State := State.reset
     0 < s.links.length ∧ (s.link 0).presence = false ∧ (s.link 0).inbound = []) := by
  refine ⟨?_, ?_, ?_⟩ <;> decide +kernel

theorem witness_HoldLimitBounds :
    (100 ≤ 300 ∧ 1 ≤ 64 ∧ 10 ≤ 10 ∧ 6000 ≤ 6000 ∧ 5 ≤ 5 ∧ 600 ≤ 600) := by
  decide +kernel

theorem witness_HoldAnswers :
    (let f : Frame := fr kindHold 0 []
     let s : State := asks 1 f shelf
     isNode 1 = true ∧ s.CanTake 1 kindHold 1 f ∧ f.tag = 0) ∧
    (let f : Frame := fr kindHold 1 [0]
     let s : State := asks 1 f shelf
     isNode 1 = true ∧ s.CanTake 1 kindHold 1 f ∧ f.tag ≠ 0 ∧ f.body.length < 2) ∧
    (let f : Frame := fr kindHold 1 [0, 2]
     let s : State := asks 1 f (lent loan shelf)
     isNode 1 = true ∧ s.CanTake 1 kindHold 1 f ∧ f.tag ≠ 0 ∧ 2 ≤ f.body.length ∧
     s.matchLoan (some 1) (loanIdAt f.body 0) = none) ∧
    (let f : Frame := fr kindHold 255 [0, 1]
     let s : State := asks 1 f (lent { loan with idle := 499 } shelf)
     isNode 1 = true ∧ s.CanTake 1 kindHold 1 f ∧ f.tag ≠ 0 ∧ 2 ≤ f.body.length ∧
     s.matchLoan (some 1) (loanIdAt f.body 0) = some { loan with idle := 499 } ∧ 0 < loan.holdLimit ∧
     0 < Config.slots) ∧
    (let f : Frame := fr kindHold 1 [0, 1]
     let l : Loan := { loan with state := .ending, endReason := some .bayFault, commands := 1 }
     let s : State := asks 1 f (lent l shelf)
     isNode 1 = true ∧ s.CanTake 1 kindHold 1 f ∧ f.tag ≠ 0 ∧ 2 ≤ f.body.length ∧
     s.matchLoan (some 1) (loanIdAt f.body 0) = some l ∧ l.state ≠ .active) := by
  simp only [canTake_iff]
  refine ⟨?_, ?_, ?_, ?_, ?_⟩ <;> decide +kernel

theorem witness_QueryListsLoans :
    (let f : Frame := fr kindQuery 1 []
     let s : State := asks 1 f (lent loan shelf)
     isNode 1 = true ∧ s.CanTake 1 kindQuery 1 f ∧ f.tag ≠ 0) := by
  simp only [canTake_iff]
  decide +kernel

theorem witness_BorrowGranted :
    (let f : Frame := fr kindBorrow 5 [0, 1, 2, 1, 0, 0, 0, 0, 0, 0, 0, 49, 0]
     let q : BorrowBody := { bay := 0, kind := .view, cls := .normal, range := some ⟨0, 49⟩, waitAllowed := false }
     let s : State := asks 1 f shelf
     isNode 1 = true ∧ s.CanTake 1 kindBorrow (borrowNeeds f.body) f ∧ s.borrowHeader 1 f = none ∧
     borrowForm f.body = .ok q ∧ s.borrowRefusal 1 q.bay (clampRange (s.bay q.bay).capacity q.range) = none ∧
     s.obstacle q.bay q.kind (clampClass (s.nodeEntry 1).classCap q.cls) (clampRange (s.bay q.bay).capacity q.range) = none ∧
     0 < s.loans.length ∧ s.loan 0 = none ∧ q.kind ≠ .keep) ∧
    (let f : Frame := fr kindBorrow 5 [0, 1, 1, 1, 0, 0, 0, 0, 0, 0, 0, 49, 1]
     let q : BorrowBody := { bay := 0, kind := .view, cls := .rush, range := some ⟨0, 49⟩, waitAllowed := true }
     let s : State := asks 1 f (lent { loan with kind := .view } { shelf with twins := some twin :: shelf.twins.tail })
     isNode 1 = true ∧ s.CanTake 1 kindBorrow (borrowNeeds f.body) f ∧ s.borrowHeader 1 f = none ∧
     borrowForm f.body = .ok q ∧ s.borrowRefusal 1 q.bay (clampRange (s.bay q.bay).capacity q.range) = none ∧
     s.obstacle q.bay q.kind (clampClass (s.nodeEntry 1).classCap q.cls) (clampRange (s.bay q.bay).capacity q.range) = none ∧
     (∀ j, j < 1 → (s.loan j).isSome = true) ∧ 1 < s.loans.length ∧ s.loan 1 = none ∧
     s.placementTwin 0 .view (some ⟨0, 49⟩) = some (0, 1)) ∧
    (let f : Frame := fr kindBorrow 5 [0, 2, 2, 0, 0, 0, 0, 0, 0, 0, 0, 0, 0]
     let q : BorrowBody := { bay := 0, kind := .keep, cls := .normal, range := none, waitAllowed := false }
     let s : State := asks 1 f shelf
     isNode 1 = true ∧ s.CanTake 1 kindBorrow (borrowNeeds f.body) f ∧ s.borrowHeader 1 f = none ∧
     borrowForm f.body = .ok q ∧ s.borrowRefusal 1 q.bay (clampRange (s.bay q.bay).capacity q.range) = none ∧
     s.obstacle q.bay q.kind (clampClass (s.nodeEntry 1).classCap q.cls) (clampRange (s.bay q.bay).capacity q.range) = none ∧
     s.loan 0 = none ∧ q.kind = .keep ∧ (∀ w ∈ s.twins, w = none)) ∧
    (let f : Frame := fr kindBorrow 5 [0, 2, 2, 1, 0, 0, 0, 63, 0, 0, 0, 99, 0]
     let q : BorrowBody := { bay := 0, kind := .keep, cls := .normal, range := some ⟨63, 99⟩, waitAllowed := false }
     let s : State := asks 1 f { shelf with twins := some twin :: shelf.twins.tail }
     isNode 1 = true ∧ s.CanTake 1 kindBorrow (borrowNeeds f.body) f ∧ s.borrowHeader 1 f = none ∧
     borrowForm f.body = .ok q ∧ s.borrowRefusal 1 q.bay (clampRange (s.bay q.bay).capacity q.range) = none ∧
     s.obstacle q.bay q.kind (clampClass (s.nodeEntry 1).classCap q.cls) (clampRange (s.bay q.bay).capacity q.range) = none ∧
     q.kind = .keep ∧ (s.twin 0).any (fun w => w.state == .live) = true) := by
  simp only [canTake_iff]
  refine ⟨?_, ?_, ?_, ?_⟩ <;> decide +kernel

theorem witness_BorrowQueued :
    (let f : Frame := fr kindBorrow 5 [0, 1, 2, 1, 0, 0, 0, 0, 0, 0, 0, 49, 1]
     let q : BorrowBody := { bay := 0, kind := .view, cls := .normal, range := some ⟨0, 49⟩, waitAllowed := true }
     let s : State := asks 1 f { shelf with settings := { shelf.settings with level := .lockdown } }
     isNode 1 = true ∧ s.CanTake 1 kindBorrow 2 f ∧ borrowNeeds f.body = 2 ∧ s.borrowHeader 1 f = none ∧
     borrowForm f.body = .ok q ∧ s.borrowRefusal 1 q.bay (clampRange (s.bay q.bay).capacity q.range) = none ∧
     s.obstacle q.bay q.kind (clampClass (s.nodeEntry 1).classCap q.cls) (clampRange (s.bay q.bay).capacity q.range) = some .masked ∧
     s.waits.length < Config.waitEntries ∧ masks s.settings.level (clampClass (s.nodeEntry 1).classCap q.cls) = true) ∧
    (let f : Frame := fr kindBorrow 5 [0, 2, 2, 1, 0, 0, 0, 0, 0, 0, 0, 49, 1]
     let q : BorrowBody := { bay := 0, kind := .keep, cls := .normal, range := some ⟨0, 49⟩, waitAllowed := true }
     let s : State := asks 1 f (bayIn 0 .spinWait shelf)
     isNode 1 = true ∧ s.CanTake 1 kindBorrow 2 f ∧ borrowNeeds f.body = 2 ∧ s.borrowHeader 1 f = none ∧
     borrowForm f.body = .ok q ∧ s.borrowRefusal 1 q.bay (clampRange (s.bay q.bay).capacity q.range) = none ∧
     s.obstacle q.bay q.kind (clampClass (s.nodeEntry 1).classCap q.cls) (clampRange (s.bay q.bay).capacity q.range) = some .spin ∧
     s.waits.length < Config.waitEntries ∧
     s.conflictsTable q.bay q.kind (clampRange (s.bay q.bay).capacity q.range) = false) ∧
    (let f : Frame := fr kindBorrow 5 [0, 2, 2, 1, 0, 0, 0, 49, 0, 0, 0, 49, 1]
     let q : BorrowBody := { bay := 0, kind := .keep, cls := .normal, range := some ⟨49, 49⟩, waitAllowed := true }
     let s : State := asks 1 f (lent { loan with borrower := 2 } shelf)
     isNode 1 = true ∧ s.CanTake 1 kindBorrow 2 f ∧ borrowNeeds f.body = 2 ∧ s.borrowHeader 1 f = none ∧
     borrowForm f.body = .ok q ∧ s.borrowRefusal 1 q.bay (clampRange (s.bay q.bay).capacity q.range) = none ∧
     s.obstacle q.bay q.kind (clampClass (s.nodeEntry 1).classCap q.cls) (clampRange (s.bay q.bay).capacity q.range) = some .conflict ∧
     s.waits.length < Config.waitEntries) ∧
    (let f : Frame := fr kindBorrow 5 [0, 2, 2, 1, 0, 0, 0, 49, 0, 0, 0, 49, 1]
     let e : WaitEntry := { node := 1, tag := 5, bay := 0, kind := .keep, cls := .normal, range := some ⟨49, 49⟩, arrival := 0, masked := false }
     let q : BorrowBody := { bay := 0, kind := .keep, cls := .normal, range := some ⟨49, 49⟩, waitAllowed := true }
     let s : State := asks 1 f (lent { loan with borrower := 2 } shelf)
     isNode 1 = true ∧ s.CanTake 1 kindBorrow 2 f ∧ borrowNeeds f.body = 2 ∧ s.borrowHeader 1 f = none ∧
     borrowForm f.body = .ok q ∧ s.borrowRefusal 1 q.bay (clampRange (s.bay q.bay).capacity q.range) = none ∧
     s.obstacle q.bay q.kind (clampClass (s.nodeEntry 1).classCap q.cls) (clampRange (s.bay q.bay).capacity q.range) = some .conflict ∧
     s.waits.length < Config.waitEntries ∧ e.masked = masks s.settings.level .normal ∧ e.masked = false ∧
     s.loans.length = Config.slots ∧ (∀ k l, s.loan k = some l → l.state = .active ∧
     l.idle < ({ s with waits := insertWait e s.waits } : State).holdLimit l)) ∧
    (let f : Frame := fr kindBorrow 5 [0, 2, 2, 1, 0, 0, 0, 60, 0, 0, 0, 60, 1]
     let q : BorrowBody := { bay := 0, kind := .keep, cls := .normal, range := some ⟨60, 60⟩, waitAllowed := true }
     let s : State := asks 1 f (waits waiter (lent { loan with borrower := 2 } shelf))
     isNode 1 = true ∧ s.CanTake 1 kindBorrow 2 f ∧ borrowNeeds f.body = 2 ∧ s.borrowHeader 1 f = none ∧
     borrowForm f.body = .ok q ∧ s.borrowRefusal 1 q.bay (clampRange (s.bay q.bay).capacity q.range) = none ∧
     s.obstacle q.bay q.kind (clampClass (s.nodeEntry 1).classCap q.cls) (clampRange (s.bay q.bay).capacity q.range) = some .order ∧
     s.waits.length < Config.waitEntries ∧ s.WaitsOrdered ∧ (∃ x ∈ s.waits, x.masked = false ∧
     conflictsEntry q.bay q.kind q.range x = true ∧ x.cls.rank ≤ Cls.normal.rank) ∧
     (∀ x ∈ s.waits, (s.bay x.bay).state.awaitable = true ∧ s.isTwinTarget x.bay = false ∧
     rangeOutside (s.bay x.bay).capacity x.range = false ∧ s.conflictsTable x.bay x.kind x.range = true)) := by
  simp only [canTake_iff, forall_loan, State.WaitsOrdered]
  refine ⟨?_, ?_, ?_, ?_, ?_⟩ <;> decide +kernel

theorem witness_BorrowAnsweredAtOnce :
    (let f : Frame := fr kindBorrow 0 []
     let s : State := asks 1 f { shelf with settings := { shelf.settings with nodeTable := { NodeEntry.default with enabled := false } :: shelf.settings.nodeTable.tail } }
     isNode 1 = true ∧ s.CanTake 1 kindBorrow (borrowNeeds f.body) f ∧ (s.nodeEntry 1).enabled = false) ∧
    (let f : Frame := fr kindBorrow 0 []
     let s : State := asks 1 f shelf
     isNode 1 = true ∧ s.CanTake 1 kindBorrow (borrowNeeds f.body) f ∧ (s.nodeEntry 1).enabled = true ∧ f.tag = 0) ∧
    (let f : Frame := fr kindBorrow 7 []
     let s : State := asks 1 f (runs cmd shelf)
     isNode 1 = true ∧ s.CanTake 1 kindBorrow (borrowNeeds f.body) f ∧ (s.nodeEntry 1).enabled = true ∧ f.tag ≠ 0 ∧
     s.tagPending 1 f.tag = true) ∧
    (let f : Frame := fr kindBorrow 5 [0, 1, 2, 1, 0, 0, 0, 0, 0, 0, 0, 49]
     let s : State := asks 1 f shelf
     isNode 1 = true ∧ s.CanTake 1 kindBorrow (borrowNeeds f.body) f ∧ s.borrowHeader 1 f = none ∧
     borrowForm f.body = .error ⟨.badLength, .body, 12⟩) ∧
    (let f : Frame := fr kindBorrow 5 [0, 1, 2, 1, 0, 0, 0, 50, 0, 0, 0, 49, 1]
     let s : State := asks 1 f shelf
     isNode 1 = true ∧ s.CanTake 1 kindBorrow (borrowNeeds f.body) f ∧ s.borrowHeader 1 f = none ∧
     borrowForm f.body = .error ⟨.badField, .body, 4⟩) ∧
    (let f : Frame := fr kindBorrow 5 [24, 1, 2, 1, 0, 0, 0, 0, 0, 0, 0, 49, 1]
     let q : BorrowBody := { bay := 24, kind := .view, cls := .normal, range := some ⟨0, 49⟩, waitAllowed := true }
     let s : State := asks 1 f shelf
     isNode 1 = true ∧ s.CanTake 1 kindBorrow (borrowNeeds f.body) f ∧ s.borrowHeader 1 f = none ∧
     borrowForm f.body = .ok q ∧ s.borrowRefusal 1 q.bay (clampRange (s.bay q.bay).capacity q.range) = some .noBay) ∧
    (let f : Frame := fr kindBorrow 5 [0, 1, 2, 1, 0, 0, 0, 100, 0, 0, 0, 100, 1]
     let q : BorrowBody := { bay := 0, kind := .view, cls := .normal, range := some ⟨100, 100⟩, waitAllowed := true }
     let s : State := asks 1 f shelf
     isNode 1 = true ∧ s.CanTake 1 kindBorrow (borrowNeeds f.body) f ∧ s.borrowHeader 1 f = none ∧
     borrowForm f.body = .ok q ∧ s.borrowRefusal 1 q.bay (clampRange (s.bay q.bay).capacity q.range) = some .outside) ∧
    (let f : Frame := fr kindBorrow 5 [0, 1, 2, 1, 0, 0, 0, 0, 0, 0, 0, 49, 0]
     let q : BorrowBody := { bay := 0, kind := .view, cls := .normal, range := some ⟨0, 49⟩, waitAllowed := false }
     let s : State := asks 1 f (bayIn 0 .spinWait shelf)
     isNode 1 = true ∧ s.CanTake 1 kindBorrow (borrowNeeds f.body) f ∧ s.borrowHeader 1 f = none ∧
     borrowForm f.body = .ok q ∧ s.borrowRefusal 1 q.bay (clampRange (s.bay q.bay).capacity q.range) = none ∧
     s.obstacle q.bay q.kind (clampClass (s.nodeEntry 1).classCap q.cls) (clampRange (s.bay q.bay).capacity q.range) = some .spin ∧
     q.waitAllowed = false) ∧
    (let f : Frame := fr kindBorrow 5 [0, 1, 2, 1, 0, 0, 0, 0, 0, 0, 0, 49, 1]
     let q : BorrowBody := { bay := 0, kind := .view, cls := .normal, range := some ⟨0, 49⟩, waitAllowed := true }
     let s : State := asks 1 f { bayIn 0 .spinWait shelf with waits := List.replicate 64 waiter }
     isNode 1 = true ∧ s.CanTake 1 kindBorrow (borrowNeeds f.body) f ∧ s.borrowHeader 1 f = none ∧
     borrowForm f.body = .ok q ∧ s.borrowRefusal 1 q.bay (clampRange (s.bay q.bay).capacity q.range) = none ∧
     s.obstacle q.bay q.kind (clampClass (s.nodeEntry 1).classCap q.cls) (clampRange (s.bay q.bay).capacity q.range) = some .spin ∧
     q.waitAllowed = true ∧ Config.waitEntries ≤ s.waits.length) := by
  simp only [canTake_iff]
  refine ⟨?_, ?_, ?_, ?_, ?_, ?_, ?_, ?_, ?_⟩ <;> decide +kernel

theorem witness_WithdrawRemovesEntry :
    (let f : Frame := fr kindWithdraw 0 []
     let s : State := asks 2 f shelf
     isNode 2 = true ∧ s.CanTake 2 kindWithdraw 1 f ∧ f.body.length < 1) ∧
    (let f : Frame := fr kindWithdraw 0 [9]
     let s : State := asks 2 f shelf
     isNode 2 = true ∧ s.CanTake 2 kindWithdraw 1 f ∧ 1 ≤ f.body.length ∧ f.tag = 0) ∧
    (let f : Frame := fr kindWithdraw 9 [8]
     let s : State := asks 2 f (waits waiter shelf)
     isNode 2 = true ∧ s.CanTake 2 kindWithdraw 1 f ∧ 1 ≤ f.body.length ∧ f.tag ≠ 0 ∧ ∀ e ∈ s.waits, ¬(e.node = 2 ∧
     e.tag = field f.body 0 1)) ∧
    (let f : Frame := fr kindWithdraw 9 [9]
     let s : State := asks 2 f (waits waiter shelf)
     isNode 2 = true ∧ s.CanTake 2 kindWithdraw 1 f ∧ 1 ≤ f.body.length ∧ f.tag ≠ 0 ∧ (∃ e ∈ s.waits, e.node = 2 ∧
     e.tag = field f.body 0 1) ∧ 0 < (s.link 2).reserved) := by
  simp only [canTake_iff]
  refine ⟨?_, ?_, ?_, ?_⟩ <;> decide +kernel

theorem witness_ReturnActsByState :
    (let f : Frame := fr kindReturn 8 [0, 1]
     let s : State := asks 1 f (lent { loan with borrower := 2 } shelf)
     isNode 1 = true ∧ s.CanTake 1 kindReturn 1 f ∧ f.tag ≠ 0 ∧ s.tagPending 1 f.tag = false ∧ 2 ≤ f.body.length ∧
     s.matchLoan (some 1) (loanIdAt f.body 0) = none) ∧
    (let f : Frame := fr kindReturn 8 [0, 1]
     let s : State := asks 1 f (lent loan shelf)
     isNode 1 = true ∧ s.CanTake 1 kindReturn 1 f ∧ f.tag ≠ 0 ∧ s.tagPending 1 f.tag = false ∧ 2 ≤ f.body.length ∧
     s.matchLoan (some 1) (loanIdAt f.body 0) = some loan ∧ s.recordsOf 0 = [] ∧ loan.viaTwin = none ∧ s.waits = []) ∧
    (let f : Frame := fr kindReturn 8 [0, 1]
     let l : Loan := { loan with state := .ending, endReason := some .reclaimed, commands := 1 }
     let s : State := asks 1 f (lent l shelf)
     isNode 1 = true ∧ s.CanTake 1 kindReturn 1 f ∧ f.tag ≠ 0 ∧ s.tagPending 1 f.tag = false ∧ 2 ≤ f.body.length ∧
     s.matchLoan (some 1) (loanIdAt f.body 0) = some l ∧ l.state = .ending ∧ l.returnTag = none) ∧
    (let f : Frame := fr kindReturn 8 [0, 1]
     let l : Loan := { loan with state := .returning, endReason := some .returned, commands := 1, returnTag := some 3 }
     let s : State := asks 1 f (lent l shelf)
     isNode 1 = true ∧ s.CanTake 1 kindReturn 1 f ∧ f.tag ≠ 0 ∧ s.tagPending 1 f.tag = false ∧ 2 ≤ f.body.length ∧
     s.matchLoan (some 1) (loanIdAt f.body 0) = some l ∧ l.state = .returning ∧ l.returnTag ≠ none) ∧
    (let f : Frame := fr kindReturn 8 [0, 1]
     let l : Loan := { loan with state := .ended, endReason := some .bayFault }
     let s : State := asks 1 f (lent l shelf)
     isNode 1 = true ∧ s.CanTake 1 kindReturn 1 f ∧ f.tag ≠ 0 ∧ s.tagPending 1 f.tag = false ∧ 2 ≤ f.body.length ∧
     s.matchLoan (some 1) (loanIdAt f.body 0) = some l ∧ l.state = .ended ∧ l.viaTwin = none ∧ s.waits = []) ∧
    (let f : Frame := fr kindReturn 0 [0, 1]
     let s : State := asks 1 f (lent loan shelf)
     isNode 1 = true ∧ s.CanTake 1 kindReturn 1 f ∧ f.tag = 0) ∧
    (let f : Frame := fr kindReturn 7 [0, 1]
     let s : State := asks 1 f (runs cmd shelf)
     isNode 1 = true ∧ s.CanTake 1 kindReturn 1 f ∧ f.tag ≠ 0 ∧ s.tagPending 1 f.tag = true) ∧
    (let f : Frame := fr kindReturn 8 [0]
     let s : State := asks 1 f shelf
     isNode 1 = true ∧ s.CanTake 1 kindReturn 1 f ∧ f.tag ≠ 0 ∧ s.tagPending 1 f.tag = false ∧ f.body.length < 2) ∧
    (let f : Frame := fr kindReturn 8 [0, 1]
     let r : Command := { cmd with state := .inService, held := 2 }
     let s : State := asks 1 f (serves r (.readBlock 10) shelf)
     isNode 1 = true ∧ s.CanTake 1 kindReturn 1 f ∧ f.tag ≠ 0 ∧ s.tagPending 1 f.tag = false ∧ 2 ≤ f.body.length ∧
     s.matchLoan (some 1) (loanIdAt f.body 0) = some { loan with commands := 1 } ∧ s.onlyRecord 0 r ∧ s.waits = [] ∧
     r.chosen ∧ r.kind ≠ .stream ∧ r.state = .inService) ∧
    (let f : Frame := fr kindReturn 8 [0, 1]
     let r : Command := { cmd with state := .delivering, held := 1, done := 2, outcome := some .ok, replied := true }
     let s : State := asks 1 f (runs r shelf)
     isNode 1 = true ∧ s.CanTake 1 kindReturn 1 f ∧ f.tag ≠ 0 ∧ s.tagPending 1 f.tag = false ∧ 2 ≤ f.body.length ∧
     s.matchLoan (some 1) (loanIdAt f.body 0) = some { loan with commands := 1 } ∧ s.onlyRecord 0 r ∧ s.waits = [] ∧
     r.chosen ∧ r.kind ≠ .stream ∧ r.state = .delivering) ∧
    (let f : Frame := fr kindReturn 8 [0, 1]
     let r : Command := { cmd with kind := .stream, total := 9, segSize := 4, count := 4, state := .delivering, held := 1, delivered := 9, done := 4, replied := true }
     let s : State := asks 1 f (runs r shelf)
     isNode 1 = true ∧ s.CanTake 1 kindReturn 1 f ∧ f.tag ≠ 0 ∧ s.tagPending 1 f.tag = false ∧ 2 ≤ f.body.length ∧
     s.matchLoan (some 1) (loanIdAt f.body 0) = some { loan with commands := 1 } ∧ s.onlyRecord 0 r ∧ s.waits = [] ∧
     r.chosen ∧ r.kind = .stream ∧ r.replied = true) ∧
    (let f : Frame := fr kindReturn 8 [0, 1]
     let r : Command := { cmd with kind := .stream, total := 9, segSize := 4, count := 4, state := .inService, held := 4 }
     let s : State := asks 1 f (serves r (.readBlock 10) shelf)
     isNode 1 = true ∧ s.CanTake 1 kindReturn 1 f ∧ f.tag ≠ 0 ∧ s.tagPending 1 f.tag = false ∧ 2 ≤ f.body.length ∧
     s.matchLoan (some 1) (loanIdAt f.body 0) = some { loan with commands := 1 } ∧ s.onlyRecord 0 r ∧ s.waits = [] ∧
     r.chosen ∧ r.kind = .stream ∧ r.replied = false) ∧
    (let f : Frame := fr kindReturn 8 [0, 1]
     let r : Command := { cmd with kind := .stream, total := 9, segSize := 4, count := 4, delivered := 4, segFirst := 14, held := 1 }
     let s : State := asks 1 f ((runs r shelf).modBay 0 fun x => { x with ring := [member] })
     isNode 1 = true ∧ s.CanTake 1 kindReturn 1 f ∧ f.tag ≠ 0 ∧ s.tagPending 1 f.tag = false ∧ 2 ≤ f.body.length ∧
     s.matchLoan (some 1) (loanIdAt f.body 0) = some { loan with commands := 1 } ∧ s.onlyRecord 0 r ∧ s.waits = [] ∧
     r.kind = .stream ∧ r.state = .queued ∧ 0 < r.held ∧ r.node = 1 ∧ (s.link r.node).presence = true ∧
     0 < (s.link r.node).reserved) ∧
    (let f : Frame := fr kindReturn 8 [0, 1]
     let r : Command := cmd
     let s : State := asks 1 f ((runs r shelf).modBay 0 fun x => { x with ring := [member] })
     isNode 1 = true ∧ s.CanTake 1 kindReturn 1 f ∧ f.tag ≠ 0 ∧ s.tagPending 1 f.tag = false ∧ 2 ≤ f.body.length ∧
     s.matchLoan (some 1) (loanIdAt f.body 0) = some { loan with commands := 1 } ∧ s.onlyRecord 0 r ∧ s.waits = [] ∧
     (∃ out bay, r.endsAtOnce .cancelled out bay) ∧ r.node = 1 ∧ (s.link r.node).presence = true ∧
     0 < (s.link r.node).reserved) ∧
    (let f : Frame := fr kindReturn 8 [0, 1]
     let r : Command := { cmd with kind := .write, state := .gathering, held := 2, dataGap := 50 }
     let s : State := asks 1 f (runs r shelf)
     isNode 1 = true ∧ s.CanTake 1 kindReturn 1 f ∧ f.tag ≠ 0 ∧ s.tagPending 1 f.tag = false ∧ 2 ≤ f.body.length ∧
     s.matchLoan (some 1) (loanIdAt f.body 0) = some { loan with commands := 1 } ∧ s.onlyRecord 0 r ∧ s.waits = [] ∧
     (∃ out bay, r.endsAtOnce .cancelled out bay) ∧ r.node = 1 ∧ (s.link r.node).presence = true ∧
     0 < (s.link r.node).reserved) ∧
    (let f : Frame := fr kindReturn 8 [0, 1]
     let r : Command := { cmd with kind := .stream, total := 9, segSize := 4, count := 4, delivered := 4, segFirst := 14 }
     let s : State := asks 1 f ((runs r shelf).modBay 0 fun x => { x with ring := [member] })
     isNode 1 = true ∧ s.CanTake 1 kindReturn 1 f ∧ f.tag ≠ 0 ∧ s.tagPending 1 f.tag = false ∧ 2 ≤ f.body.length ∧
     s.matchLoan (some 1) (loanIdAt f.body 0) = some { loan with commands := 1 } ∧ s.onlyRecord 0 r ∧ s.waits = [] ∧
     (∃ out bay, r.endsAtOnce .cancelled out bay) ∧ r.node = 1 ∧ (s.link r.node).presence = true ∧
     0 < (s.link r.node).reserved) := by
  simp only [canTake_iff, State.onlyRecord, Command.chosen, endsAtOnce_iff]
  refine ⟨?_, ?_, ?_, ?_, ?_, ?_, ?_, ?_, ?_, ?_, ?_, ?_, ?_, ?_, ?_, ?_⟩ <;> decide +kernel

theorem witness_IdleClockExpiryEndsLoan :
    (let l : Loan := { loan with idle := 500 }
     let s : State := lent l shelf
     s.Settled ∧ 0 < Config.slots ∧ s.loan 0 = some l ∧ l.state = .active ∧ l.commands = 0 ∧ l.holdLimit ≤ l.idle ∧
     s.recordsOf 0 = [] ∧ l.viaTwin = none ∧ l.returnTag = none ∧ s.waits = [] ∧
     (∀ j x, j < Config.slots → j ≠ 0 → s.loan j = some x → x.borrower = l.borrower → x.notice = none) ∧
     s.placeable l.borrower) ∧
    (let l : Loan := { loan with idle := 500 }
     let s : State := lent l (full 1 shelf)
     s.Settled ∧ 0 < Config.slots ∧ s.loan 0 = some l ∧ l.state = .active ∧ l.commands = 0 ∧ l.holdLimit ≤ l.idle ∧
     s.recordsOf 0 = [] ∧ l.viaTwin = none ∧ l.returnTag = none ∧ s.waits = [] ∧
     (∀ j x, j < Config.slots → j ≠ 0 → s.loan j = some x → x.borrower = l.borrower → x.notice = none) ∧
     ¬ s.placeable l.borrower) := by
  simp only [forall_loan₂, State.Settled, State.placeable]
  refine ⟨?_, ?_⟩ <;> decide +kernel

theorem witness_LoanNoticePlaced :
    (let l : Loan := { loan with placedBay := 1, notice := some .loanMoved }
     let s : State := lent l shelf
     s.Settled ∧ isNode 1 = true ∧ 0 < Config.slots ∧ s.loan 0 = some l ∧ l.borrower = 1 ∧ s.placeable 1 ∧
     (∀ j x, j < 0 → s.loan j = some x → x.borrower = 1 → x.notice = none) ∧ l.notice = some .loanMoved ∧
     l.state = .active) ∧
    (let l : Loan := { loan with state := .ended, endReason := some .bayFault, notice := some .loanEnded }
     let s : State := lent l shelf
     s.Settled ∧ isNode 1 = true ∧ 0 < Config.slots ∧ s.loan 0 = some l ∧ l.borrower = 1 ∧ s.placeable 1 ∧
     (∀ j x, j < 0 → s.loan j = some x → x.borrower = 1 → x.notice = none) ∧ l.notice = some .loanEnded ∧
     l.viaTwin = none ∧ s.waits = []) ∧
    (let l : Loan := { loan with placedBay := 1, notice := some .loanMoved, state := .ending, endReason := some .reclaimed, commands := 1 }
     let s : State := lent l shelf
     isNode 1 = true ∧ (∀ k l, s.loan k = some l → l.notice = some .loanMoved ∧ l.state ≠ .active)) := by
  simp only [forall_loan, forall_loan₁, State.Settled, State.placeable]
  refine ⟨?_, ?_, ?_⟩ <;> decide +kernel

theorem witness_ReclaimActsByState :
    (let f : Frame := fr kindReclaim 1 [0]
     let s : State := asks 0 f shelf
     s.CanTake 0 kindReclaim 1 f ∧ f.tag ≠ 0 ∧ f.body.length < 2) ∧
    (let f : Frame := fr kindReclaim 1 [0, 1]
     let s : State := asks 0 f shelf
     s.CanTake 0 kindReclaim 1 f ∧ f.tag ≠ 0 ∧ 2 ≤ f.body.length ∧ s.matchLoan none (loanIdAt f.body 0) = none) ∧
    (let f : Frame := fr kindReclaim 1 [0, 1]
     let l : Loan := { loan with state := .ended, endReason := some .bayFault, notice := some .loanEnded }
     let s : State := asks 0 f (lent l shelf)
     s.CanTake 0 kindReclaim 1 f ∧ f.tag ≠ 0 ∧ 2 ≤ f.body.length ∧ s.matchLoan none (loanIdAt f.body 0) = some l ∧
     l.state ≠ .active) ∧
    (let f : Frame := fr kindReclaim 1 [0, 1]
     let s : State := asks 0 f (lent loan (full 1 shelf))
     s.CanTake 0 kindReclaim 1 f ∧ f.tag ≠ 0 ∧ 2 ≤ f.body.length ∧ s.matchLoan none (loanIdAt f.body 0) = some loan ∧
     s.recordsOf 0 = [] ∧ loan.returnTag = none ∧ s.waits = [] ∧ loan.borrower ≠ 0 ∧ ¬ s.placeable loan.borrower) ∧
    (let f : Frame := fr kindReclaim 1 [0, 1]
     let s : State := asks 0 f (lent loan shelf)
     s.CanTake 0 kindReclaim 1 f ∧ f.tag ≠ 0 ∧ 2 ≤ f.body.length ∧ s.matchLoan none (loanIdAt f.body 0) = some loan ∧
     s.recordsOf 0 = [] ∧ loan.returnTag = none ∧ s.waits = [] ∧ loan.borrower ≠ 0 ∧ s.placeable loan.borrower ∧
     loan.viaTwin = none ∧
     (∀ j x, j < Config.slots → j ≠ 0 → s.loan j = some x → x.borrower = loan.borrower → x.notice = none)) ∧
    (let f : Frame := fr kindReclaim 1 [0, 1]
     let r : Command := { cmd with state := .inService, held := 2 }
     let s : State := asks 0 f (serves r (.readBlock 10) shelf)
     s.CanTake 0 kindReclaim 1 f ∧ f.tag ≠ 0 ∧ 2 ≤ f.body.length ∧
     s.matchLoan none (loanIdAt f.body 0) = some { loan with commands := 1 } ∧ s.onlyRecord 0 r ∧ s.waits = [] ∧
     r.chosen ∧ r.kind ≠ .stream ∧ r.state = .inService) ∧
    (let f : Frame := fr kindReclaim 1 [0, 1]
     let r : Command := { cmd with state := .delivering, held := 1, done := 2, outcome := some .ok, replied := true }
     let s : State := asks 0 f (runs r shelf)
     s.CanTake 0 kindReclaim 1 f ∧ f.tag ≠ 0 ∧ 2 ≤ f.body.length ∧
     s.matchLoan none (loanIdAt f.body 0) = some { loan with commands := 1 } ∧ s.onlyRecord 0 r ∧ s.waits = [] ∧
     r.chosen ∧ r.kind ≠ .stream ∧ r.state = .delivering) ∧
    (let f : Frame := fr kindReclaim 1 [0, 1]
     let r : Command := { cmd with kind := .stream, total := 9, segSize := 4, count := 4, state := .delivering, held := 1, delivered := 9, done := 4, replied := true }
     let s : State := asks 0 f (runs r shelf)
     s.CanTake 0 kindReclaim 1 f ∧ f.tag ≠ 0 ∧ 2 ≤ f.body.length ∧
     s.matchLoan none (loanIdAt f.body 0) = some { loan with commands := 1 } ∧ s.onlyRecord 0 r ∧ s.waits = [] ∧
     r.chosen ∧ r.kind = .stream ∧ r.replied = true) ∧
    (let f : Frame := fr kindReclaim 1 [0, 1]
     let r : Command := { cmd with kind := .stream, total := 9, segSize := 4, count := 4, state := .inService, held := 4 }
     let s : State := asks 0 f (serves r (.readBlock 10) shelf)
     s.CanTake 0 kindReclaim 1 f ∧ f.tag ≠ 0 ∧ 2 ≤ f.body.length ∧
     s.matchLoan none (loanIdAt f.body 0) = some { loan with commands := 1 } ∧ s.onlyRecord 0 r ∧ s.waits = [] ∧
     r.chosen ∧ r.kind = .stream ∧ r.replied = false) ∧
    (let f : Frame := fr kindReclaim 1 [0, 1]
     let r : Command := { cmd with kind := .stream, total := 9, segSize := 4, count := 4, delivered := 4, segFirst := 14, held := 1 }
     let s : State := asks 0 f ((runs r shelf).modBay 0 fun x => { x with ring := [member] })
     s.CanTake 0 kindReclaim 1 f ∧ f.tag ≠ 0 ∧ 2 ≤ f.body.length ∧
     s.matchLoan none (loanIdAt f.body 0) = some { loan with commands := 1 } ∧ s.onlyRecord 0 r ∧ s.waits = [] ∧
     r.kind = .stream ∧ r.state = .queued ∧ 0 < r.held ∧ r.node = 1 ∧ (s.link r.node).presence = true ∧
     0 < (s.link r.node).reserved) ∧
    (let f : Frame := fr kindReclaim 1 [0, 1]
     let r : Command := cmd
     let s : State := asks 0 f ((runs r shelf).modBay 0 fun x => { x with ring := [member] })
     s.CanTake 0 kindReclaim 1 f ∧ f.tag ≠ 0 ∧ 2 ≤ f.body.length ∧
     s.matchLoan none (loanIdAt f.body 0) = some { loan with commands := 1 } ∧ s.onlyRecord 0 r ∧ s.waits = [] ∧
     (∃ out bay, r.endsAtOnce .reclaimed out bay) ∧ r.node = 1 ∧ (s.link r.node).presence = true ∧
     0 < (s.link r.node).reserved ∧ s.placeable 1 ∧
     (∀ j x, j < Config.slots → j ≠ 0 → s.loan j = some x → x.borrower = loan.borrower → x.notice = none)) ∧
    (let f : Frame := fr kindReclaim 1 [0, 1]
     let r : Command := cmd
     let s : State := asks 0 f (full 1 ((runs r shelf).modBay 0 fun x => { x with ring := [member] }))
     s.CanTake 0 kindReclaim 1 f ∧ f.tag ≠ 0 ∧ 2 ≤ f.body.length ∧
     s.matchLoan none (loanIdAt f.body 0) = some { loan with commands := 1 } ∧ s.onlyRecord 0 r ∧ s.waits = [] ∧
     (∃ out bay, r.endsAtOnce .reclaimed out bay) ∧ r.node = 1 ∧ (s.link r.node).presence = true ∧
     0 < (s.link r.node).reserved ∧ ¬ s.placeable 1) ∧
    (let f : Frame := fr kindReclaim 1 [0, 1]
     let r : Command := { cmd with kind := .write, state := .gathering, held := 2, dataGap := 50 }
     let s : State := asks 0 f (runs r shelf)
     s.CanTake 0 kindReclaim 1 f ∧ f.tag ≠ 0 ∧ 2 ≤ f.body.length ∧
     s.matchLoan none (loanIdAt f.body 0) = some { loan with commands := 1 } ∧ s.onlyRecord 0 r ∧ s.waits = [] ∧
     (∃ out bay, r.endsAtOnce .reclaimed out bay) ∧ r.node = 1 ∧ (s.link r.node).presence = true ∧
     0 < (s.link r.node).reserved ∧ s.placeable 1 ∧
     (∀ j x, j < Config.slots → j ≠ 0 → s.loan j = some x → x.borrower = loan.borrower → x.notice = none)) ∧
    (let f : Frame := fr kindReclaim 1 [0, 1]
     let r : Command := { cmd with kind := .write, state := .gathering, held := 2, dataGap := 50 }
     let s : State := asks 0 f (full 1 (runs r shelf))
     s.CanTake 0 kindReclaim 1 f ∧ f.tag ≠ 0 ∧ 2 ≤ f.body.length ∧
     s.matchLoan none (loanIdAt f.body 0) = some { loan with commands := 1 } ∧ s.onlyRecord 0 r ∧ s.waits = [] ∧
     (∃ out bay, r.endsAtOnce .reclaimed out bay) ∧ r.node = 1 ∧ (s.link r.node).presence = true ∧
     0 < (s.link r.node).reserved ∧ ¬ s.placeable 1) ∧
    (let f : Frame := fr kindReclaim 1 [0, 1]
     let r : Command := { cmd with kind := .stream, total := 9, segSize := 4, count := 4, delivered := 4, segFirst := 14 }
     let s : State := asks 0 f ((runs r shelf).modBay 0 fun x => { x with ring := [member] })
     s.CanTake 0 kindReclaim 1 f ∧ f.tag ≠ 0 ∧ 2 ≤ f.body.length ∧
     s.matchLoan none (loanIdAt f.body 0) = some { loan with commands := 1 } ∧ s.onlyRecord 0 r ∧ s.waits = [] ∧
     (∃ out bay, r.endsAtOnce .reclaimed out bay) ∧ r.node = 1 ∧ (s.link r.node).presence = true ∧
     0 < (s.link r.node).reserved ∧ s.placeable 1 ∧
     (∀ j x, j < Config.slots → j ≠ 0 → s.loan j = some x → x.borrower = loan.borrower → x.notice = none)) ∧
    (let f : Frame := fr kindReclaim 1 [0, 1]
     let r : Command := { cmd with kind := .stream, total := 9, segSize := 4, count := 4, delivered := 4, segFirst := 14 }
     let s : State := asks 0 f (full 1 ((runs r shelf).modBay 0 fun x => { x with ring := [member] }))
     s.CanTake 0 kindReclaim 1 f ∧ f.tag ≠ 0 ∧ 2 ≤ f.body.length ∧
     s.matchLoan none (loanIdAt f.body 0) = some { loan with commands := 1 } ∧ s.onlyRecord 0 r ∧ s.waits = [] ∧
     (∃ out bay, r.endsAtOnce .reclaimed out bay) ∧ r.node = 1 ∧ (s.link r.node).presence = true ∧
     0 < (s.link r.node).reserved ∧ ¬ s.placeable 1) := by
  simp only [canTake_iff, forall_loan₂, State.placeable, State.onlyRecord, Command.chosen, endsAtOnce_iff]
  refine ⟨?_, ?_, ?_, ?_, ?_, ?_, ?_, ?_, ?_, ?_, ?_, ?_, ?_, ?_, ?_, ?_⟩ <;> decide +kernel

theorem witness_ReadAndStreamQueued :
    (let f : Frame := fr kindRead 7 [0, 1, 0, 0, 0, 10, 2]
     let q : BlocksBody := { id := id0, first := 10, count := 2 }
     let s : State := asks 1 f (lent loan shelf)
     isNode 1 = true ∧ s.CanTake 1 kindRead 1 f ∧ s.commandHeader 1 f = none ∧ blocksForm f.body = .ok q ∧
     s.admission 1 .read q.id q.first q.count = none ∧ s.matchLoan (some 1) q.id = some loan ∧
     s.hotQuiet loan.placedBay) ∧
    (let f : Frame := fr kindStream 7 [0, 1, 0, 0, 0, 10, 0, 40, 32]
     let q : StreamBody := { id := id0, first := 10, total := 40, segSize := 32 }
     let s : State := asks 1 f (lent loan shelf)
     isNode 1 = true ∧ s.CanTake 1 kindStream 1 f ∧ s.commandHeader 1 f = none ∧ streamForm f.body = .ok q ∧
     s.admission 1 .stream q.id q.first q.total = none ∧ s.matchLoan (some 1) q.id = some loan ∧
     s.hotQuiet loan.placedBay) ∧
    (let f : Frame := fr kindRead 7 [0, 1, 0, 0, 0, 10, 2]
     let q : BlocksBody := { id := id0, first := 10, count := 2 }
     let s : State := asks 1 f (hot 1 (lent { loan with kind := .view } shelf))
     isNode 1 = true ∧ s.CanTake 1 kindRead 1 f ∧ s.commandHeader 1 f = none ∧ blocksForm f.body = .ok q ∧
     s.admission 1 .read q.id q.first q.count = none ∧ s.matchLoan (some 1) q.id = some { loan with kind := .view } ∧
     s.hotFires 0 1 0 0 ∧ s.waits = []) ∧
    (let f : Frame := fr kindStream 7 [0, 1, 0, 0, 0, 10, 0, 40, 32]
     let q : StreamBody := { id := id0, first := 10, total := 40, segSize := 32 }
     let s : State := asks 1 f (hot 1 (lent { loan with kind := .view } shelf))
     isNode 1 = true ∧ s.CanTake 1 kindStream 1 f ∧ s.commandHeader 1 f = none ∧ streamForm f.body = .ok q ∧
     s.admission 1 .stream q.id q.first q.total = none ∧
     s.matchLoan (some 1) q.id = some { loan with kind := .view } ∧ s.hotFires 0 1 0 0 ∧ s.waits = []) ∧
    (let f : Frame := fr kindRead 7 [0, 1, 0, 0, 0, 10, 2]
     let q : BlocksBody := { id := id0, first := 10, count := 2 }
     let s : State := asks 1 f (hot 2 (lent { loan with kind := .view } shelf))
     isNode 1 = true ∧ s.CanTake 1 kindRead 1 f ∧ s.commandHeader 1 f = none ∧ blocksForm f.body = .ok q ∧
     s.admission 1 .read q.id q.first q.count = none ∧ s.matchLoan (some 1) q.id = some { loan with kind := .view } ∧
     s.hotQuiet 0 ∧ (s.profile 0).hotThreshold = 2 ∧ (s.bay 0).ring = [] ∧ s.waits = []) ∧
    (let f : Frame := fr kindStream 7 [0, 1, 0, 0, 0, 10, 0, 40, 32]
     let q : StreamBody := { id := id0, first := 10, total := 40, segSize := 32 }
     let s : State := asks 1 f (hot 2 (lent { loan with kind := .view } shelf))
     isNode 1 = true ∧ s.CanTake 1 kindStream 1 f ∧ s.commandHeader 1 f = none ∧ streamForm f.body = .ok q ∧
     s.admission 1 .stream q.id q.first q.total = none ∧
     s.matchLoan (some 1) q.id = some { loan with kind := .view } ∧ s.hotQuiet 0 ∧ (s.profile 0).hotThreshold = 2 ∧
     (s.bay 0).ring = [] ∧ s.waits = []) := by
  simp only [canTake_iff, hotQuiet_iff, State.hotFires]
  refine ⟨?_, ?_, ?_, ?_, ?_, ?_⟩ <;> decide +kernel

theorem witness_AdmissionAnswers :
    (let f : Frame := fr kindRead 7 [0, 1, 0, 0, 0, 49, 2]
     let q : BlocksBody := { id := id0, first := 49, count := 2 }
     let s : State := asks 1 f (lent loan shelf)
     isNode 1 = true ∧ s.CanTake 1 kindRead 1 f ∧ s.commandHeader 1 f = none ∧ blocksForm f.body = .ok q ∧
     s.admission 1 .read q.id q.first q.count = some .outside) ∧
    (let f : Frame := fr kindStream 7 [0, 1, 0, 0, 0, 10, 0, 40, 32]
     let q : StreamBody := { id := id0, first := 10, total := 40, segSize := 32 }
     let s : State := asks 1 f (lent { loan with state := .ended, endReason := some .bayFault } shelf)
     isNode 1 = true ∧ s.CanTake 1 kindStream 1 f ∧ s.commandHeader 1 f = none ∧ streamForm f.body = .ok q ∧
     s.admission 1 .stream q.id q.first q.total = some .ended) ∧
    (let f : Frame := fr kindWrite 7 [0, 1, 0, 0, 0, 10, 2]
     let q : BlocksBody := { id := id0, first := 10, count := 2 }
     let s : State := asks 1 f (lent { loan with kind := .view } shelf)
     isNode 1 = true ∧ s.CanTake 1 kindWrite 1 f ∧ s.commandHeader 1 f = none ∧ blocksForm f.body = .ok q ∧
     s.admission 1 .write q.id q.first q.count = some .readOnly) ∧
    (let f : Frame := fr kindRead 0 [0, 1, 0, 0, 0, 10, 2]
     let s : State := asks 1 f shelf
     isNode 1 = true ∧ s.CanTake 1 kindRead 1 f ∧ f.tag = 0) ∧
    (let f : Frame := fr kindWrite 7 [0, 1, 0, 0, 0, 10, 33]
     let s : State := asks 1 f shelf
     isNode 1 = true ∧ s.CanTake 1 kindWrite 1 f ∧ s.commandHeader 1 f = none ∧ f.body.length = 7 ∧
     32 < field f.body 6 1) ∧
    (let f : Frame := fr kindRead 7 [0, 1, 0, 0, 0, 10, 2]
     let s : State := asks 1 f (runs cmd shelf)
     isNode 1 = true ∧ s.CanTake 1 kindRead 1 f ∧ f.tag ≠ 0 ∧ s.tagPending 1 f.tag = true) ∧
    (let f : Frame := fr kindRead 7 [0, 1]
     let s : State := asks 1 f shelf
     isNode 1 = true ∧ s.CanTake 1 kindRead 1 f ∧ s.commandHeader 1 f = none ∧ f.body.length ≠ 7) ∧
    (let f : Frame := fr kindStream 0 [0, 1, 0, 0, 0, 10, 0, 40, 32]
     let s : State := asks 1 f shelf
     isNode 1 = true ∧ s.CanTake 1 kindStream 1 f ∧ f.tag = 0) ∧
    (let f : Frame := fr kindStream 7 [0, 1, 0, 0, 0, 10, 0, 40, 32]
     let s : State := asks 1 f (runs cmd shelf)
     isNode 1 = true ∧ s.CanTake 1 kindStream 1 f ∧ f.tag ≠ 0 ∧ s.tagPending 1 f.tag = true) ∧
    (let f : Frame := fr kindStream 7 [0, 1]
     let s : State := asks 1 f shelf
     isNode 1 = true ∧ s.CanTake 1 kindStream 1 f ∧ s.commandHeader 1 f = none ∧ f.body.length ≠ 9) ∧
    (let f : Frame := fr kindWrite 0 [0, 1, 0, 0, 0, 10, 2]
     let s : State := asks 1 f shelf
     isNode 1 = true ∧ s.CanTake 1 kindWrite 1 f ∧ f.tag = 0) ∧
    (let f : Frame := fr kindWrite 7 [0, 1, 0, 0, 0, 10, 2]
     let s : State := asks 1 f (runs cmd shelf)
     isNode 1 = true ∧ s.CanTake 1 kindWrite 1 f ∧ f.tag ≠ 0 ∧ s.tagPending 1 f.tag = true) ∧
    (let f : Frame := fr kindWrite 7 [0, 1]
     let s : State := asks 1 f shelf
     isNode 1 = true ∧ s.CanTake 1 kindWrite 1 f ∧ s.commandHeader 1 f = none ∧ f.body.length ≠ 7) ∧
    (let f : Frame := fr kindRead 7 [0, 1, 0, 0, 0, 10, 0]
     let s : State := asks 1 f shelf
     isNode 1 = true ∧ s.CanTake 1 kindRead 1 f ∧ s.commandHeader 1 f = none ∧ f.body.length = 7 ∧
     field f.body 6 1 = 0) ∧
    (let f : Frame := fr kindStream 7 [0, 1, 0, 0, 0, 10, 0, 0, 33]
     let s : State := asks 1 f shelf
     isNode 1 = true ∧ s.CanTake 1 kindStream 1 f ∧ s.commandHeader 1 f = none ∧ f.body.length = 9 ∧
     field f.body 6 2 = 0) ∧
    (let f : Frame := fr kindStream 7 [0, 1, 0, 0, 0, 10, 0, 1, 33]
     let s : State := asks 1 f shelf
     isNode 1 = true ∧ s.CanTake 1 kindStream 1 f ∧ s.commandHeader 1 f = none ∧ f.body.length = 9 ∧
     field f.body 6 2 ≠ 0 ∧ 32 < field f.body 8 1) := by
  simp only [canTake_iff]
  refine ⟨?_, ?_, ?_, ?_, ?_, ?_, ?_, ?_, ?_, ?_, ?_, ?_, ?_, ?_, ?_, ?_⟩ <;> decide +kernel

theorem witness_WriteTakenOrHeld :
    (let f : Frame := fr kindWrite 7 [0, 1, 0, 0, 0, 10, 2]
     let q : BlocksBody := { id := id0, first := 10, count := 2 }
     let s : State := asks 1 f { lent loan shelf with poolFree := 2 }
     isNode 1 = true ∧ s.CanTake 1 kindWrite 1 f ∧ s.commandHeader 1 f = none ∧ blocksForm f.body = .ok q ∧
     s.admission 1 .write q.id q.first q.count = none ∧ s.matchLoan (some 1) q.id = some loan ∧ s.poolWait = [] ∧
     q.count ≤ s.poolFree) ∧
    (let f : Frame := fr kindWrite 7 [0, 1, 0, 0, 0, 10, 2]
     let q : BlocksBody := { id := id0, first := 10, count := 2 }
     let s : State := asks 1 f { lent loan shelf with poolFree := 1 }
     isNode 1 = true ∧ s.CanTake 1 kindWrite 1 f ∧ s.commandHeader 1 f = none ∧ blocksForm f.body = .ok q ∧
     s.admission 1 .write q.id q.first q.count = none ∧ s.matchLoan (some 1) q.id = some loan ∧ s.poolFree < q.count) ∧
    (let f : Frame := fr kindWrite 7 [0, 1, 0, 0, 0, 10, 2]
     let q : BlocksBody := { id := id0, first := 10, count := 2 }
     let s : State := asks 1 f { lent loan shelf with poolWait := [{ who := .bay 1, count := 9 }] }
     isNode 1 = true ∧ s.CanTake 1 kindWrite 1 f ∧ s.commandHeader 1 f = none ∧ blocksForm f.body = .ok q ∧
     s.admission 1 .write q.id q.first q.count = none ∧ s.matchLoan (some 1) q.id = some loan ∧ s.poolWait ≠ []) := by
  simp only [canTake_iff]
  refine ⟨?_, ?_, ?_⟩ <;> decide +kernel

theorem witness_DataGathers :
    (let f : Frame := { kind := kindData, tag := 7, body := [0#8, 0#8] ++ List.replicate 4096 0#8 }
     let r : Command := { cmd with kind := .write, state := .gathering, held := 2, dataGap := 50, gapTimer := 3 }
     let s : State := asks 1 f (runs r shelf)
     isNode 1 = true ∧ s.CanTake 1 kindData 0 f ∧ s.record { node := 1, tag := f.tag } = some r ∧
     r.state = .gathering ∧ f.body.length = dataBodyBytes ∧ s.loan r.loan.slot = some { loan with commands := 1 } ∧
     field f.body 0 2 = r.nextIndex ∧ r.nextIndex + 1 ≠ r.count) ∧
    (let f : Frame := { kind := kindData, tag := 7, body := [0#8, 1#8] ++ List.replicate 4096 0#8 }
     let r : Command := { cmd with kind := .write, state := .gathering, held := 2, dataGap := 50, nextIndex := 1, gathered := [[]] }
     let s : State := asks 1 f (runs r shelf)
     isNode 1 = true ∧ s.CanTake 1 kindData 0 f ∧ s.record { node := 1, tag := f.tag } = some r ∧
     r.state = .gathering ∧ f.body.length = dataBodyBytes ∧ s.loan r.loan.slot = some { loan with commands := 1 } ∧
     field f.body 0 2 = r.nextIndex ∧ r.nextIndex + 1 = r.count ∧ s.hotQuiet loan.placedBay) ∧
    (let f : Frame := { kind := kindData, tag := 7, body := [0#8, 1#8] ++ List.replicate 4096 0#8 }
     let r : Command := { cmd with kind := .write, state := .gathering, held := 2, dataGap := 50, gapTimer := 3 }
     let s : State := asks 1 f (runs r shelf)
     isNode 1 = true ∧ s.CanTake 1 kindData 0 f ∧ s.record { node := 1, tag := f.tag } = some r ∧
     r.state = .gathering ∧ f.body.length = dataBodyBytes ∧ s.loan r.loan.slot = some { loan with commands := 1 } ∧
     field f.body 0 2 ≠ r.nextIndex ∧ 0 < (s.link 1).reserved) ∧
    (let f : Frame := fr kindData 7 []
     let s : State := asks 1 f shelf
     isNode 1 = true ∧ s.CanTake 1 kindData 0 f ∧ s.record { node := 1, tag := f.tag } = none) ∧
    (let f : Frame := fr kindData 7 []
     let s : State := asks 1 f (runs cmd shelf)
     isNode 1 = true ∧ s.CanTake 1 kindData 0 f ∧ s.record { node := 1, tag := f.tag } = some cmd ∧
     cmd.state ≠ .gathering) ∧
    (let r : Command := { cmd with kind := .write, state := .gathering, held := 2, dataGap := 50, gapTimer := 50 }
     let s : State := runs r shelf
     s.Settled ∧ isNode 1 = true ∧ isTag 7 = true ∧ s.record { node := 1, tag := 7 } = some r ∧ r.state = .gathering ∧
     r.dataGap ≤ r.gapTimer ∧ s.loan r.loan.slot = some { loan with commands := 1 } ∧ (s.link 1).presence = true ∧
     0 < (s.link 1).reserved) := by
  have body (x : Byte) : ([0#8, x] ++ List.replicate 4096 0#8).length = dataBodyBytes := by
    rw [List.length_append, List.length_replicate]; rfl
  refine ⟨⟨rfl, ⟨rfl, rfl, rfl, rfl, rfl, rfl⟩, rfl, rfl, body _, rfl, rfl, by decide⟩,
    ⟨rfl, ⟨rfl, rfl, rfl, rfl, rfl, rfl⟩, rfl, rfl, body _, rfl, rfl, rfl, (hotQuiet_iff _ _).2 (by decide +kernel)⟩,
    ⟨rfl, ⟨rfl, rfl, rfl, rfl, rfl, rfl⟩, rfl, rfl, body _, rfl, by decide, by decide⟩, ?_, ?_, ?_⟩ <;>
  simp only [canTake_iff, State.Settled] <;> decide +kernel

theorem witness_CancelActsByState :
    (let f : Frame := fr kindCancel 9 [7]
     let r : Command := cmd
     let s : State := asks 1 f ((runs r shelf).modBay 0 fun x => { x with ring := [member] })
     isNode 1 = true ∧ f.tag ≠ 0 ∧ f.body.length = 1 ∧ s.record { node := 1, tag := field f.body 0 1 } = some r ∧
     s.CanTake 1 kindCancel 0 f ∧ s.loan r.loan.slot = some { loan with commands := 1 } ∧ r.kind ≠ .stream ∧
     r.state = .queued ∧ 0 < (s.link 1).reserved) ∧
    (let f : Frame := fr kindCancel 9 [7]
     let r : Command := { cmd with kind := .write, state := .gathering, held := 2, dataGap := 50, gapTimer := 3 }
     let s : State := asks 1 f (runs r shelf)
     isNode 1 = true ∧ f.tag ≠ 0 ∧ f.body.length = 1 ∧ s.record { node := 1, tag := field f.body 0 1 } = some r ∧
     s.CanTake 1 kindCancel 0 f ∧ s.loan r.loan.slot = some { loan with commands := 1 } ∧ r.state = .gathering ∧
     0 < (s.link 1).reserved) ∧
    (let f : Frame := fr kindCancel 9 [7]
     let r : Command := { cmd with state := .inService, held := 2 }
     let s : State := asks 1 f (serves r (.readBlock 10) shelf)
     isNode 1 = true ∧ f.tag ≠ 0 ∧ f.body.length = 1 ∧ s.record { node := 1, tag := field f.body 0 1 } = some r ∧
     s.CanTake 1 kindCancel 0 f ∧ s.loan r.loan.slot = some { loan with commands := 1 } ∧ r.kind ≠ .stream ∧
     r.state = .inService) ∧
    (let f : Frame := fr kindCancel 9 [7]
     let r : Command := { cmd with kind := .stream, total := 9, segSize := 2, state := .inService, held := 2 }
     let s : State := asks 1 f (serves r (.readBlock 10) shelf)
     isNode 1 = true ∧ f.tag ≠ 0 ∧ f.body.length = 1 ∧ s.record { node := 1, tag := field f.body 0 1 } = some r ∧
     s.CanTake 1 kindCancel 0 f ∧ s.loan r.loan.slot = some { loan with commands := 1 } ∧ r.kind = .stream ∧
     r.state = .inService ∧ r.replied = false ∧ r.closing = none) ∧
    (let f : Frame := fr kindCancel 9 [7]
     let r : Command := { cmd with kind := .stream, total := 9, segSize := 4, count := 4, delivered := 4, segFirst := 14 }
     let s : State := asks 1 f ((runs r shelf).modBay 0 fun x => { x with ring := [member] })
     isNode 1 = true ∧ f.tag ≠ 0 ∧ f.body.length = 1 ∧ s.record { node := 1, tag := field f.body 0 1 } = some r ∧
     s.CanTake 1 kindCancel 0 f ∧ s.loan r.loan.slot = some { loan with commands := 1 } ∧ r.kind = .stream ∧
     r.state = .queued ∧ r.held = 0 ∧ 0 < (s.link 1).reserved) ∧
    (let f : Frame := fr kindCancel 9 [7]
     let r : Command := { cmd with kind := .stream, total := 9, segSize := 4, count := 4, delivered := 4, segFirst := 14, held := 1 }
     let s : State := asks 1 f ((runs r shelf).modBay 0 fun x => { x with ring := [member] })
     isNode 1 = true ∧ f.tag ≠ 0 ∧ f.body.length = 1 ∧ s.record { node := 1, tag := field f.body 0 1 } = some r ∧
     s.CanTake 1 kindCancel 0 f ∧ s.loan r.loan.slot = some { loan with commands := 1 } ∧ r.kind = .stream ∧
     r.state = .queued ∧ 0 < r.held ∧ 0 < (s.link 1).reserved) ∧
    (let f : Frame := fr kindCancel 9 [7]
     let r : Command := { cmd with kind := .stream, total := 9, segSize := 4, count := 4, state := .delivering, delivered := 9, done := 4, held := 1, replied := true }
     let s : State := asks 1 f (runs r shelf)
     isNode 1 = true ∧ f.tag ≠ 0 ∧ f.body.length = 1 ∧ s.record { node := 1, tag := field f.body 0 1 } = some r ∧
     s.CanTake 1 kindCancel 0 f ∧ s.loan r.loan.slot = some { loan with commands := 1 } ∧ r.kind = .stream ∧
     r.state = .delivering ∧ r.replied = true) ∧
    (let f : Frame := fr kindCancel 9 [7]
     let r : Command := { cmd with kind := .stream, total := 9, segSize := 4, count := 4, state := .inService, held := 4, closing := some .bayFault }
     let s : State := asks 1 f (serves r (.readBlock 10) shelf)
     isNode 1 = true ∧ f.tag ≠ 0 ∧ f.body.length = 1 ∧ s.record { node := 1, tag := field f.body 0 1 } = some r ∧
     s.CanTake 1 kindCancel 0 f ∧ s.loan r.loan.slot = some { loan with commands := 1 } ∧ r.kind = .stream ∧
     r.state = .inService ∧ r.replied = false ∧ r.closing ≠ none) ∧
    (let f : Frame := fr kindCancel 0 [7]
     let s : State := asks 1 f shelf
     isNode 1 = true ∧ s.CanTake 1 kindCancel 1 f ∧ f.tag = 0) ∧
    (let f : Frame := fr kindCancel 9 [7, 7]
     let s : State := asks 1 f shelf
     isNode 1 = true ∧ s.CanTake 1 kindCancel 1 f ∧ f.tag ≠ 0 ∧ f.body.length ≠ 1) ∧
    (let f : Frame := fr kindCancel 9 [7]
     let s : State := asks 1 f shelf
     isNode 1 = true ∧ s.CanTake 1 kindCancel 1 f ∧ f.tag ≠ 0 ∧ f.body.length = 1 ∧
     s.record { node := 1, tag := field f.body 0 1 } = none) := by
  simp only [canTake_iff]
  refine ⟨?_, ?_, ?_, ?_, ?_, ?_, ?_, ?_, ?_, ?_, ?_⟩ <;> decide +kernel

theorem witness_SegmentBoundaryDecides :
    (let r : Command := { cmd with kind := .stream, total := 9, segSize := 4, count := 4, state := .delivering, delivered := 8, done := 4, held := 1 }
     let s : State := runs r shelf
     s.Settled ∧ isNode 1 = true ∧ isTag 7 = true ∧ s.record { node := 1, tag := 7 } = some r ∧ r.kind = .stream ∧
     r.state = .delivering ∧ r.replied = false ∧ (∀ w ∈ (s.link 1).waitingData, w.tag ≠ 7) ∧
     s.loan r.loan.slot = some { loan with commands := 1 } ∧ loan.endReason ≠ some .linkLost ∧ loan.move = none ∧
     r.outcome = none ∧ r.closing = none ∧ (r.carry = 0 → r.delivered ≠ r.total) ∧
     1 = (if 0 < r.carry then r.carry else min r.segSize (r.total - r.delivered)) ∧ s.hotQuiet loan.placedBay) ∧
    (let r : Command := { cmd with kind := .stream, total := 9, segSize := 4, count := 4, state := .delivering, delivered := 5, done := 1, carry := 3 }
     let s : State := runs r shelf
     s.Settled ∧ isNode 1 = true ∧ isTag 7 = true ∧ s.record { node := 1, tag := 7 } = some r ∧ r.kind = .stream ∧
     r.state = .delivering ∧ r.replied = false ∧ (∀ w ∈ (s.link 1).waitingData, w.tag ≠ 7) ∧
     s.loan r.loan.slot = some { loan with commands := 1 } ∧ loan.endReason ≠ some .linkLost ∧ loan.move = none ∧
     r.outcome = none ∧ r.closing = none ∧ (r.carry = 0 → r.delivered ≠ r.total) ∧
     3 = (if 0 < r.carry then r.carry else min r.segSize (r.total - r.delivered)) ∧ s.hotQuiet loan.placedBay) ∧
    (let r : Command := { cmd with kind := .stream, total := 9, segSize := 4, count := 4, state := .delivering, delivered := 5, done := 1, held := 1, outcome := some .mediaError }
     let s : State := runs r shelf
     s.Settled ∧ isNode 1 = true ∧ isTag 7 = true ∧ s.record { node := 1, tag := 7 } = some r ∧ r.kind = .stream ∧
     r.state = .delivering ∧ r.replied = false ∧ (∀ w ∈ (s.link 1).waitingData, w.tag ≠ 7) ∧
     s.loan r.loan.slot = some { loan with commands := 1 } ∧ loan.endReason ≠ some .linkLost ∧ loan.move = none ∧
     r.outcome = some .mediaError ∧ 0 < r.held ∧ (s.link 1).presence = true ∧ 0 < (s.link 1).reserved) ∧
    (let r : Command := { cmd with kind := .stream, total := 9, segSize := 4, count := 4, state := .delivering, delivered := 5, done := 1, held := 1, closing := some .reclaimed }
     let s : State := runs r shelf
     s.Settled ∧ isNode 1 = true ∧ isTag 7 = true ∧ s.record { node := 1, tag := 7 } = some r ∧ r.kind = .stream ∧
     r.state = .delivering ∧ r.replied = false ∧ (∀ w ∈ (s.link 1).waitingData, w.tag ≠ 7) ∧
     s.loan r.loan.slot = some { loan with commands := 1 } ∧ loan.endReason ≠ some .linkLost ∧ loan.move = none ∧
     r.outcome = none ∧ r.closing = some .reclaimed ∧ 0 < r.held ∧ (s.link 1).presence = true ∧
     0 < (s.link 1).reserved) ∧
    (let r : Command := { cmd with kind := .stream, total := 9, segSize := 4, count := 4, state := .delivering, delivered := 9, done := 4, held := 1 }
     let s : State := runs r shelf
     s.Settled ∧ isNode 1 = true ∧ isTag 7 = true ∧ s.record { node := 1, tag := 7 } = some r ∧ r.kind = .stream ∧
     r.state = .delivering ∧ r.replied = false ∧ (∀ w ∈ (s.link 1).waitingData, w.tag ≠ 7) ∧
     s.loan r.loan.slot = some { loan with commands := 1 } ∧ loan.endReason ≠ some .linkLost ∧ loan.move = none ∧
     r.outcome = none ∧ r.closing = none ∧ r.carry = 0 ∧ r.delivered = r.total ∧ 0 < r.held ∧
     (s.link 1).presence = true ∧ 0 < (s.link 1).reserved) ∧
    (let r : Command := { cmd with kind := .stream, total := 9, segSize := 4, count := 4, state := .delivering, delivered := 5, done := 1, carry := 3 }
     let s : State := lent { loan with commands := 1, move := some { bay := 1, via := some 0, reason := .bayFault } } (runs r shelf)
     s.Settled ∧ isNode 1 = true ∧ isTag 7 = true ∧ s.record ref7 = some r ∧ r.kind = .stream ∧
     r.state = .delivering ∧ r.replied = false ∧ (s.link 1).waitingData = [] ∧
     (s.loan 0).any (fun l => l.endReason == none && l.move != none) = true ∧ s.workOnBay r.loan.slot = false) := by
  simp only [State.Settled, hotQuiet_iff]
  refine ⟨?_, ?_, ?_, ?_, ?_, ?_⟩ <;> decide +kernel

theorem witness_PoolServesHead :
    (let r : Command := { cmd with state := .poolWait }
     let s : State := { (runs r shelf).modBay 0 (fun x => { x with chosen := some (.command ref7) }) with poolWait := [{ who := .bay 0, count := 2 }], poolFree := 2 }
     s.Settled ∧ s.poolWait = { who := .bay 0, count := 2 } :: [] ∧ 2 ≤ s.poolFree ∧
     (s.bay 0).chosen = some (.command ref7) ∧ s.record ref7 = some r ∧ r.kind ≠ .write) ∧
    (let r : Command := { cmd with state := .poolWait }
     let s : State := { (runs r shelf).modBay 0 (fun x => { x with chosen := some (.command ref7) }) with poolWait := [{ who := .bay 0, count := 2 }, { who := .bay 1, count := 3 }], poolFree := 4 }
     s.Settled ∧ s.poolWait = { who := .bay 0, count := 2 } :: [{ who := .bay 1, count := 3 }] ∧ 2 ≤ s.poolFree ∧
     (s.bay 0).chosen = some (.command ref7) ∧ s.record ref7 = some r ∧ r.kind ≠ .write) ∧
    (let s : State := { (copying shelf).modBay 0 (fun x => { x with chosen := some (.chunkRead 0) }) with poolWait := [{ who := .bay 0, count := 32 }], poolFree := 32 }
     s.Settled ∧ s.poolWait = { who := .bay 0, count := 32 } :: [] ∧ 32 ≤ s.poolFree ∧
     (s.bay 0).chosen = some (.chunkRead 0) ∧ 0 < s.channels.length ∧ (s.channel 0).busy = true) ∧
    (let f : Frame := fr kindWrite 7 [0, 1, 0, 0, 0, 10, 2]
     let q : BlocksBody := { id := id0, first := 10, count := 2 }
     let s : State := { (runs cmd shelf).modLink 1 (fun x => { x with inbound := [f], reserved := x.reserved + 1, heldWrite := true }) with poolWait := [{ who := .link 1, count := 2 }] }
     s.Settled ∧ isNode 1 = true ∧ s.poolWait = [{ who := .link 1, count := 2 }] ∧ q.count = 2 ∧ 2 ≤ s.poolFree ∧
     (s.link 1).inbound.head? = some f ∧ (s.link 1).presence = true ∧ 0 < (s.link 1).reserved ∧
     blocksForm f.body = .ok q ∧ s.tagPending 1 f.tag = true) ∧
    (let f : Frame := fr kindWrite 7 [0, 1, 0, 0, 0, 10, 2]
     let q : BlocksBody := { id := id0, first := 10, count := 2 }
     let s : State := { (shelf).modLink 1 (fun x => { x with inbound := [f], reserved := x.reserved + 1, heldWrite := true }) with poolWait := [{ who := .link 1, count := 2 }] }
     s.Settled ∧ isNode 1 = true ∧ s.poolWait = [{ who := .link 1, count := 2 }] ∧ q.count = 2 ∧ 2 ≤ s.poolFree ∧
     (s.link 1).inbound.head? = some f ∧ (s.link 1).presence = true ∧ 0 < (s.link 1).reserved ∧
     blocksForm f.body = .ok q ∧ s.tagPending 1 f.tag = false ∧
     s.admission 1 .write q.id q.first q.count = some .noLoan) ∧
    (let f : Frame := fr kindWrite 7 [0, 1, 0, 0, 0, 10, 2]
     let q : BlocksBody := { id := id0, first := 10, count := 2 }
     let s : State := { (lent loan shelf).modLink 1 (fun x => { x with inbound := [f], reserved := x.reserved + 1, heldWrite := true }) with poolWait := [{ who := .link 1, count := 2 }] }
     s.Settled ∧ isNode 1 = true ∧ s.poolWait = [{ who := .link 1, count := 2 }] ∧ q.count = 2 ∧ 2 ≤ s.poolFree ∧
     (s.link 1).inbound.head? = some f ∧ (s.link 1).presence = true ∧ 0 < (s.link 1).reserved ∧
     blocksForm f.body = .ok q ∧ s.tagPending 1 f.tag = false ∧ s.admission 1 .write q.id q.first q.count = none ∧
     s.matchLoan (some 1) q.id = some loan) ∧
    (let s : State := { shelf with poolWait := [{ who := .link 1, count := 2 }], poolFree := 1 }
     s.Settled ∧ s.poolWait = [{ who := .link 1, count := 2 }] ∧ s.poolFree < 2) := by
  simp only [State.Settled]
  refine ⟨?_, ?_, ?_, ?_, ?_, ?_, ?_⟩ <;> decide +kernel

theorem witness_WaitingDataPlaced :
    (let r : Command := { cmd with kind := .stream, total := 9, segSize := 4, count := 4, state := .delivering, done := 1, held := 1 }
     let s : State := (runs r shelf).modLink 1 fun x => { x with waitingData := [{ tag := 7, block := 10, index := 0, bytes := [] }] }
     s.Settled ∧ isNode 1 = true ∧ s.hasRoom 1 = true ∧
     (s.link 1).waitingData = [{ tag := 7, block := 10, index := 0, bytes := [] }] ∧
     s.record { node := 1, tag := 7 } = some r ∧ r.kind = .stream) ∧
    (let r : Command := { cmd with state := .inService, done := 1, held := 2 }
     let s : State := (runs r shelf).modLink 1 fun x => { x with waitingData := [{ tag := 7, block := 10, index := 0, bytes := [] }] }
     s.Settled ∧ isNode 1 = true ∧ s.hasRoom 1 = true ∧
     (s.link 1).waitingData = [{ tag := 7, block := 10, index := 0, bytes := [] }] ∧
     s.record { node := 1, tag := 7 } = some r ∧ r.kind = .read ∧ r.outcome = none) ∧
    (let r : Command := { cmd with state := .delivering, done := 2, held := 2, outcome := some .ok }
     let s : State := (runs r shelf).modLink 1 fun x => { x with waitingData := [{ tag := 7, block := 10, index := 0, bytes := [] }, { tag := 7, block := 10, index := 0, bytes := [] }] }
     s.Settled ∧ isNode 1 = true ∧ s.hasRoom 1 = true ∧
     (s.link 1).waitingData = [{ tag := 7, block := 10, index := 0, bytes := [] }, { tag := 7, block := 10, index := 0, bytes := [] }] ∧
     s.record { node := 1, tag := 7 } = some r ∧ r.kind = .read ∧ r.outcome = some .ok) ∧
    (let r : Command := { cmd with state := .delivering, done := 1, held := 1, outcome := some .mediaError }
     let s : State := (runs r shelf).modLink 1 fun x => { x with waitingData := [{ tag := 7, block := 10, index := 0, bytes := [] }] }
     s.Settled ∧ isNode 1 = true ∧ s.hasRoom 1 = true ∧
     (s.link 1).waitingData = [{ tag := 7, block := 10, index := 0, bytes := [] }] ∧
     s.record { node := 1, tag := 7 } = some r ∧ r.kind = .read ∧ r.outcome = some .mediaError ∧ r.replied = false ∧
     0 < r.held ∧ 0 < (s.link 1).reserved ∧ s.lost r = false) := by
  simp only [State.Settled]
  refine ⟨?_, ?_, ?_, ?_⟩ <;> decide +kernel

theorem witness_CostBaseAndSurcharge :
    (let s : State := runs cmd shelf
     (s.profile 0).seekCap ≤ 64 ∧ member.who = .loan 0 ∧ member.queued = [ref7] ∧ s.record ref7 = some cmd ∧
     1 ≤ cmd.count ∧ cmd.count ≤ 32) ∧
    (let r : Command := { cmd with kind := .write, count := 32 }
     let s : State := runs r shelf
     s.record ref7 = some r ∧ r.kind = .write ∧ 1 ≤ r.count ∧ r.count ≤ 32) ∧
    (let s : State := copying shelf
     (s.profile 0).seekCap ≤ 64 ∧ 1 ≤ (s.channel 0).chunkCount ∧ (s.channel 0).chunkCount ≤ 32) := by
  refine ⟨?_, ?_, ?_⟩ <;> decide +kernel

theorem witness_RingStepDispatches :
    (1 ≤ 1 ∧
     (∀ m n : Member, m.who = n.who → m.queued = n.queued → (fun _ : Member => 128) m = (fun _ : Member => 128) n) ∧
     [member, { member with who := .channel 1, cls := .rush, credit := -128, queued := [] }] ≠ [] ∧ 1 ≤ 64 ∧
     128 ≤ 128 ∧
     ∀ m ∈ [member, { member with who := .channel 1, cls := .rush, credit := -128, queued := [] }], m.inBounds) := by
  refine ⟨by decide, fun _ _ _ _ => rfl, by decide, by decide, by decide, ?_⟩
  simp only [Member.inBounds]
  decide

theorem witness_DispatchPointChooses :
    (let s : State := (shelf).modBay 0 fun x => { x with upkeepDue := true, cursor := 40 }
     isBay 0 = true ∧ (s.bay 0).state = .ready ∧ (s.bay 0).service = none ∧ (s.bay 0).op = none ∧
     (s.bay 0).chosen = none ∧ (∀ k l, s.loan k = some l → l.move = none) ∧ (s.bay 0).upkeepDue = true ∧
     (s.bay 0).capacity = some 100 ∧ ∀ m ∈ (s.bay 0).ring, m.cls ≠ .rush) ∧
    (let s : State := (runs cmd shelf).modBay 0 fun x => { x with upkeepDue := true, cursor := 40, deferral := 3, ring := [{ member with cls := .rush }] }
     isBay 0 = true ∧ (s.bay 0).state = .ready ∧ (s.bay 0).service = none ∧ (s.bay 0).op = none ∧
     (s.bay 0).chosen = none ∧ (∀ k l, s.loan k = some l → l.move = none) ∧ (s.bay 0).upkeepDue = true ∧
     (s.bay 0).capacity = some 100 ∧ 3 ≤ (s.bay 0).deferral) ∧
    (let s : State := (runs cmd shelf).modBay 0 fun x => { x with upkeepDue := true, deferral := 2, ring := [{ member with cls := .rush }], chunkWrite := some 1 }
     isBay 0 = true ∧ (s.bay 0).state = .ready ∧ (s.bay 0).service = none ∧ (s.bay 0).op = none ∧
     (s.bay 0).chosen = none ∧ (∀ k l, s.loan k = some l → l.move = none) ∧ (s.bay 0).upkeepDue = true ∧
     (s.bay 0).deferral < 3 ∧ (∃ m ∈ (s.bay 0).ring, m.cls = .rush) ∧ (s.bay 0).chunkWrite = some 1) ∧
    (let s : State := (shelf).modBay 0 fun x => { x with chunkWrite := some 0 }
     isBay 0 = true ∧ (s.bay 0).state = .ready ∧ (s.bay 0).service = none ∧ (s.bay 0).op = none ∧
     (s.bay 0).chosen = none ∧ (∀ k l, s.loan k = some l → l.move = none) ∧ (s.bay 0).upkeepDue = false ∧
     (s.bay 0).chunkWrite = some 0) ∧
    (let s : State := shelf
     isBay 0 = true ∧ (s.bay 0).state = .ready ∧ (s.bay 0).service = none ∧ (s.bay 0).op = none ∧
     (s.bay 0).chosen = none ∧ (∀ k l, s.loan k = some l → l.move = none) ∧ (s.bay 0).upkeepDue = false ∧
     (s.bay 0).chunkWrite = none ∧ (s.bay 0).ring = []) ∧
    (let r : Command := { cmd with kind := .write, held := 2, gathered := [[], []] }
     let s : State := (runs r shelf).modBay 0 fun x => { x with ring := [member] }
     isBay 0 = true ∧ (s.bay 0).state = .ready ∧ (s.bay 0).service = none ∧ (s.bay 0).op = none ∧
     (s.bay 0).chosen = none ∧ (∀ k l, s.loan k = some l → l.move = none) ∧ (s.bay 0).upkeepDue = false ∧
     (s.bay 0).chunkWrite = none ∧ s.ringChoice 0 = some (member, []) ∧ member.who = .loan 0 ∧
     member.queued = [ref7] ∧ s.record ref7 = some r ∧ r.kind = .write) ∧
    (let r : Command := cmd
     let s : State := (runs r shelf).modBay 0 fun x => { x with ring := [member] }
     isBay 0 = true ∧ (s.bay 0).state = .ready ∧ (s.bay 0).service = none ∧ (s.bay 0).op = none ∧
     (s.bay 0).chosen = none ∧ (∀ k l, s.loan k = some l → l.move = none) ∧ s.ringChoice 0 = some (member, []) ∧
     s.record ref7 = some r ∧ r.kind ≠ .write ∧ s.poolWait = [] ∧ r.count ≤ s.poolFree) ∧
    (let r : Command := cmd
     let s : State := ({ runs r shelf with poolFree := 1 }).modBay 0 fun x => { x with ring := [member] }
     isBay 0 = true ∧ (s.bay 0).state = .ready ∧ (s.bay 0).service = none ∧ (s.bay 0).op = none ∧
     (s.bay 0).chosen = none ∧ (∀ k l, s.loan k = some l → l.move = none) ∧ s.ringChoice 0 = some (member, []) ∧
     s.record ref7 = some r ∧ r.kind ≠ .write ∧ s.poolFree < r.count) ∧
    (let chm : Member := { who := .channel 0, cls := .bulk, credit := 0, visited := false, queued := [] }
     let s : State := ({ copying shelf with channels := [{ Channel.free with busy := true, phase := .queued, chunkCount := 4 }, Channel.free] }).modBay 0 fun x => { x with ring := [chm] }
     isBay 0 = true ∧ (s.bay 0).state = .ready ∧ (s.bay 0).service = none ∧ (s.bay 0).op = none ∧
     (s.bay 0).chosen = none ∧ (∀ k l, s.loan k = some l → l.move = none) ∧ (s.bay 0).upkeepDue = false ∧
     (s.bay 0).chunkWrite = none ∧ s.ringChoice 0 = some (chm, []) ∧ chm.who = .channel 0 ∧ 0 < s.channels.length ∧
     (s.channel 0).busy = true ∧ s.poolWait = [] ∧ (s.channel 0).chunkCount ≤ s.poolFree) ∧
    (let chm : Member := { who := .channel 0, cls := .bulk, credit := 0, visited := false, queued := [] }
     let s : State := ({ { copying shelf with channels := [{ Channel.free with busy := true, phase := .queued, chunkCount := 4 }, Channel.free] } with poolFree := 3 }).modBay 0 fun x => { x with ring := [chm] }
     isBay 0 = true ∧ (s.bay 0).state = .ready ∧ (s.bay 0).service = none ∧ (s.bay 0).op = none ∧
     (s.bay 0).chosen = none ∧ (∀ k l, s.loan k = some l → l.move = none) ∧ (s.bay 0).upkeepDue = false ∧
     (s.bay 0).chunkWrite = none ∧ s.ringChoice 0 = some (chm, []) ∧ chm.who = .channel 0 ∧ 0 < s.channels.length ∧
     (s.channel 0).busy = true ∧ s.poolFree < (s.channel 0).chunkCount) ∧
    (let s : State := ({ runs cmd shelf with settings := { shelf.settings with profiles := List.replicate 24 { Profile.default with quantum := 1 } } }).modBay 0 fun x => { x with ring := [{ member with credit := -900 }] }
     isBay 0 = true ∧ (s.bay 0).state = .ready ∧ (s.bay 0).service = none ∧ (s.bay 0).op = none ∧
     (s.bay 0).chosen = none ∧ (∀ k l, s.loan k = some l → l.move = none) ∧ (s.bay 0).ring ≠ [] ∧
     (s.profile 0).quantum ≠ 0) := by
  simp only [forall_loan]
  refine ⟨?_, ?_, ?_, ?_, ?_, ?_, ?_, ?_, ?_, ?_, ?_⟩ <;> decide +kernel

theorem witness_ReadBlockAnswered :
    (let r : Command := { cmd with state := .inService, held := 2 }
     let s : State := serves r (.readBlock 10) shelf
     isBay 0 = true ∧ s.Settled ∧ (s.bay 0).op = some (.readBlock 10) ∧ (s.bay 0).opNumber = 5 ∧
     (s.bay 0).service = some (.command ref7) ∧ s.record ref7 = some r ∧
     (List.replicate 4096 1#8).length = Config.blockBytes ∧ r.segFirst + r.done = 10 ∧ r.done + 1 < r.count ∧
     r.stop = false ∧ s.lost r = false ∧ s.placeable ref7.node) ∧
    (let r : Command := { cmd with kind := .stream, total := 9, segSize := 4, count := 4, segFirst := 14, delivered := 5, done := 1, state := .inService, held := 3 }
     let s : State := serves r (.readBlock 15) shelf
     isBay 0 = true ∧ s.Settled ∧ (s.bay 0).op = some (.readBlock 15) ∧ (s.bay 0).opNumber = 5 ∧
     (s.bay 0).service = some (.command ref7) ∧ s.record ref7 = some r ∧ r.kind = .stream ∧ r.segFirst + r.done = 15 ∧
     r.done + 1 < r.count ∧ r.stop = false ∧ s.lost r = false ∧ s.placeable ref7.node) ∧
    (let s : State := serves cmd (.readBlock 10) shelf
     isBay 0 = true ∧ ReadOutcome.wellFormed .mediaError = true ∧ (s.bay 0).opNumber ≠ 4) ∧
    (let r : Command := { cmd with state := .inService, done := 1, held := 2 }
     let s : State := (serves r (.readBlock 11) shelf).modLink 1 fun x => { x with waitingData := [{ tag := 7, block := 10, index := 0, bytes := [] }] }
     isBay 0 = true ∧ s.Settled ∧ (s.bay 0).op = some (.readBlock 11) ∧ (s.bay 0).opNumber = 5 ∧
     (s.bay 0).service = some (.command ref7) ∧ s.record ref7 = some r ∧ r.kind = .read ∧ r.segFirst + r.done = 11 ∧
     s.lost r = false ∧ (s.link 1).presence = true ∧ (∃ w ∈ (s.link 1).waitingData, w.tag = 7) ∧
     r.done + 1 = r.count ∧ r.count - (r.done + 1) < r.held) ∧
    (let r : Command := { cmd with state := .inService, done := 1, held := 2 }
     let s : State := ((serves r (.readBlock 11) shelf).modLink 1 fun x => { x with waitingData := [{ tag := 7, block := 10, index := 0, bytes := [] }] }).modBay 0 fun x => { x with weak := [11] }
     isBay 0 = true ∧ s.Settled ∧ (s.bay 0).op = some (.readBlock 11) ∧ (s.bay 0).opNumber = 5 ∧
     (s.bay 0).service = some (.command ref7) ∧ s.record ref7 = some r ∧ r.kind = .read ∧ r.segFirst + r.done = 11 ∧
     s.lost r = false ∧ (∃ w ∈ (s.link 1).waitingData, w.tag = 7) ∧ 11 ∈ (s.bay 0).weak ∧ (s.link 1).presence = true ∧
     r.count - r.done ≤ r.held) ∧
    (let r : Command := { cmd with count := 4, state := .inService, done := 1, held := 4, stop := true }
     let s : State := (serves r (.readBlock 11) shelf).modLink 1 fun x => { x with waitingData := [{ tag := 7, block := 10, index := 0, bytes := [] }] }
     isBay 0 = true ∧ s.Settled ∧ (s.bay 0).op = some (.readBlock 11) ∧ (s.bay 0).opNumber = 5 ∧
     (s.bay 0).service = some (.command ref7) ∧ s.record ref7 = some r ∧ r.segFirst + r.done = 11 ∧ s.lost r = false ∧
     (s.link ref7.node).presence = true ∧ (List.replicate 4096 1#8).length = Config.blockBytes ∧
     r.done + 1 < r.count ∧ r.stop = true ∧ r.count - (r.done + 1) < r.held ∧ r.kind = .read ∧
     (∃ w ∈ (s.link 1).waitingData, w.tag = 7)) ∧
    (let r : Command := { cmd with state := .inService, done := 1, held := 2 }
     let s : State := serves r (.readBlock 11) shelf
     isBay 0 = true ∧ s.Settled ∧ (s.bay 0).op = some (.readBlock 11) ∧ (s.bay 0).opNumber = 5 ∧
     (s.bay 0).service = some (.command ref7) ∧ s.record ref7 = some r ∧ r.segFirst + r.done = 11 ∧ s.lost r = false ∧
     (s.link ref7.node).presence = true ∧ (List.replicate 4096 1#8).length = Config.blockBytes ∧
     r.done + 1 = r.count ∧ r.count - (r.done + 1) < r.held ∧ r.kind = .read ∧ r.replied = false ∧
     s.placeable ref7.node ∧ 0 < (s.link ref7.node).reserved) ∧
    (let r : Command := { cmd with count := 4, state := .inService, done := 1, held := 4, stop := true }
     let s : State := serves r (.readBlock 11) shelf
     isBay 0 = true ∧ s.Settled ∧ (s.bay 0).op = some (.readBlock 11) ∧ (s.bay 0).opNumber = 5 ∧
     (s.bay 0).service = some (.command ref7) ∧ s.record ref7 = some r ∧ r.segFirst + r.done = 11 ∧ s.lost r = false ∧
     (s.link ref7.node).presence = true ∧ (List.replicate 4096 1#8).length = Config.blockBytes ∧
     r.done + 1 < r.count ∧ r.stop = true ∧ r.count - (r.done + 1) < r.held ∧ r.kind = .read ∧ r.replied = false ∧
     s.placeable ref7.node ∧ 0 < (s.link ref7.node).reserved) ∧
    (let r : Command := { cmd with kind := .stream, total := 9, segSize := 2, segFirst := 10, delivered := 1, done := 1, state := .inService, held := 2 }
     let s : State := serves r (.readBlock 11) shelf
     isBay 0 = true ∧ s.Settled ∧ (s.bay 0).op = some (.readBlock 11) ∧ (s.bay 0).opNumber = 5 ∧
     (s.bay 0).service = some (.command ref7) ∧ s.record ref7 = some r ∧ r.segFirst + r.done = 11 ∧ s.lost r = false ∧
     (s.link ref7.node).presence = true ∧ (List.replicate 4096 1#8).length = Config.blockBytes ∧
     r.done + 1 = r.count ∧ r.count - (r.done + 1) < r.held ∧ r.kind = .stream ∧ s.placeable ref7.node) ∧
    (let r : Command := { cmd with kind := .stream, total := 9, segSize := 4, count := 4, segFirst := 10, delivered := 1, done := 1, state := .inService, held := 4, stop := true }
     let s : State := serves r (.readBlock 11) shelf
     isBay 0 = true ∧ s.Settled ∧ (s.bay 0).op = some (.readBlock 11) ∧ (s.bay 0).opNumber = 5 ∧
     (s.bay 0).service = some (.command ref7) ∧ s.record ref7 = some r ∧ r.segFirst + r.done = 11 ∧ s.lost r = false ∧
     (s.link ref7.node).presence = true ∧ (List.replicate 4096 1#8).length = Config.blockBytes ∧
     r.done + 1 < r.count ∧ r.stop = true ∧ r.count - (r.done + 1) < r.held ∧ r.kind = .stream ∧
     s.placeable ref7.node) ∧
    (let r : Command := { cmd with state := .inService, held := 2 }
     let s : State := full 1 (serves r (.readBlock 10) shelf)
     isBay 0 = true ∧ s.Settled ∧ (s.bay 0).op = some (.readBlock 10) ∧ (s.bay 0).opNumber = 5 ∧
     (s.bay 0).service = some (.command ref7) ∧ s.record ref7 = some r ∧
     (List.replicate 4096 1#8).length = Config.blockBytes ∧ r.segFirst + r.done = 10 ∧ r.done + 1 < r.count ∧
     r.stop = false ∧ s.lost r = false ∧ (s.link ref7.node).presence = true ∧ ¬ s.placeable ref7.node) ∧
    (let r : Command := { cmd with kind := .stream, total := 9, segSize := 4, count := 4, segFirst := 14, delivered := 5, done := 1, state := .inService, held := 3 }
     let s : State := (serves r (.readBlock 15) shelf).modLink 1 fun x => { x with waitingData := [{ tag := 6, block := 10, index := 0, bytes := [] }] }
     isBay 0 = true ∧ s.Settled ∧ (s.bay 0).op = some (.readBlock 15) ∧ (s.bay 0).opNumber = 5 ∧
     (s.bay 0).service = some (.command ref7) ∧ s.record ref7 = some r ∧
     (List.replicate 4096 1#8).length = Config.blockBytes ∧ r.kind = .stream ∧ r.segFirst + r.done = 15 ∧
     r.done + 1 < r.count ∧ r.stop = false ∧ s.lost r = false ∧ (s.link ref7.node).presence = true ∧
     ¬ s.placeable ref7.node) ∧
    (let r : Command := { cmd with state := .inService, done := 1, held := 2 }
     let s : State := full 1 (serves r (.readBlock 11) shelf)
     isBay 0 = true ∧ s.Settled ∧ (s.bay 0).op = some (.readBlock 11) ∧ (s.bay 0).opNumber = 5 ∧
     (s.bay 0).service = some (.command ref7) ∧ s.record ref7 = some r ∧ r.segFirst + r.done = 11 ∧ s.lost r = false ∧
     (s.link ref7.node).presence = true ∧ (List.replicate 4096 1#8).length = Config.blockBytes ∧
     r.done + 1 = r.count ∧ r.count - (r.done + 1) < r.held ∧ r.kind = .read ∧ ¬ s.placeable ref7.node) ∧
    (let r : Command := { cmd with count := 4, state := .inService, done := 1, held := 4, stop := true }
     let s : State := full 1 (serves r (.readBlock 11) shelf)
     isBay 0 = true ∧ s.Settled ∧ (s.bay 0).op = some (.readBlock 11) ∧ (s.bay 0).opNumber = 5 ∧
     (s.bay 0).service = some (.command ref7) ∧ s.record ref7 = some r ∧ r.segFirst + r.done = 11 ∧ s.lost r = false ∧
     (s.link ref7.node).presence = true ∧ (List.replicate 4096 1#8).length = Config.blockBytes ∧
     r.done + 1 < r.count ∧ r.stop = true ∧ r.count - (r.done + 1) < r.held ∧ r.kind = .read ∧
     ¬ s.placeable ref7.node) ∧
    (let r : Command := { cmd with kind := .stream, total := 9, segSize := 2, segFirst := 10, delivered := 1, done := 1, state := .inService, held := 2 }
     let s : State := full 1 (serves r (.readBlock 11) shelf)
     isBay 0 = true ∧ s.Settled ∧ (s.bay 0).op = some (.readBlock 11) ∧ (s.bay 0).opNumber = 5 ∧
     (s.bay 0).service = some (.command ref7) ∧ s.record ref7 = some r ∧ r.segFirst + r.done = 11 ∧ s.lost r = false ∧
     (s.link ref7.node).presence = true ∧ (List.replicate 4096 1#8).length = Config.blockBytes ∧
     r.done + 1 = r.count ∧ r.count - (r.done + 1) < r.held ∧ r.kind = .stream ∧ ¬ s.placeable ref7.node) ∧
    (let r : Command := { cmd with kind := .stream, total := 9, segSize := 4, count := 4, segFirst := 10, delivered := 1, done := 1, state := .inService, held := 4, stop := true }
     let s : State := full 1 (serves r (.readBlock 11) shelf)
     isBay 0 = true ∧ s.Settled ∧ (s.bay 0).op = some (.readBlock 11) ∧ (s.bay 0).opNumber = 5 ∧
     (s.bay 0).service = some (.command ref7) ∧ s.record ref7 = some r ∧ r.segFirst + r.done = 11 ∧ s.lost r = false ∧
     (s.link ref7.node).presence = true ∧ (List.replicate 4096 1#8).length = Config.blockBytes ∧
     r.done + 1 < r.count ∧ r.stop = true ∧ r.count - (r.done + 1) < r.held ∧ r.kind = .stream ∧
     ¬ s.placeable ref7.node) ∧
    (let r : Command := { cmd with kind := .stream, total := 9, segSize := 2, segFirst := 10, delivered := 1, done := 1, state := .inService, held := 2 }
     let s : State := serves r (.readBlock 11) shelf
     isBay 0 = true ∧ s.Settled ∧ (s.bay 0).op = some (.readBlock 11) ∧ (s.bay 0).opNumber = 5 ∧
     (s.bay 0).service = some (.command ref7) ∧ s.record ref7 = some r ∧ r.segFirst + r.done = 11 ∧ s.lost r = false ∧
     (s.link ref7.node).presence = true ∧ r.kind = .stream ∧ 11 ∉ (s.bay 0).weak ∧ r.count - r.done ≤ r.held) ∧
    (let r : Command := { cmd with state := .inService, done := 1, held := 2 }
     let s : State := serves r (.readBlock 11) shelf
     isBay 0 = true ∧ s.Settled ∧ (s.bay 0).op = some (.readBlock 11) ∧ (s.bay 0).opNumber = 5 ∧
     (s.bay 0).service = some (.command ref7) ∧ s.record ref7 = some r ∧ r.segFirst + r.done = 11 ∧ s.lost r = false ∧
     (s.link ref7.node).presence = true ∧ r.kind = .read ∧ r.replied = false ∧
     (∀ w ∈ (s.link 1).waitingData, w.tag ≠ 7) ∧ 0 < (s.link 1).reserved ∧ r.count - r.done < r.held) ∧
    (let r : Command := { cmd with state := .inService, segFirst := 10, held := 2 }
     let s : State := (serves r (.readBlock 10) shelf).modBay 0 fun x => { x with weak := List.range' 20 16 }
     isBay 0 = true ∧ s.Settled ∧ s.record ref7 = some r ∧ r.segFirst + r.done = 10 ∧ s.lost r = false ∧
     (s.link 1).presence = true ∧ r.kind = .read ∧ r.replied = false ∧ (∀ w ∈ (s.link 1).waitingData, w.tag ≠ 7) ∧
     0 < (s.link 1).reserved ∧ r.count - r.done = r.held ∧ s.loan 0 = some { loan with commands := 1 } ∧
     10 ∉ (s.bay 0).weak) := by
  simp only [State.Settled, State.placeable]
  refine ⟨?_, ?_, ?_, ?_, ?_, ?_, ?_, ?_, ?_, ?_, ?_, ?_, ?_, ?_, ?_, ?_, ?_, ?_, ?_⟩ <;> decide +kernel

theorem witness_WriteBlockOk :
    (let r : Command := { cmd with kind := .write, state := .inService, held := 2, gathered := [[], []] }
     let s : State := serves r (.writeBlock 10 []) shelf
     isBay 0 = true ∧ s.Settled ∧ (s.bay 0).op = some (.writeBlock 10 []) ∧ (s.bay 0).opNumber = 5 ∧
     (s.bay 0).service = some (.command ref7) ∧ s.record ref7 = some r ∧ r.kind = .write ∧
     s.loan r.loan.slot = some { loan with commands := 1 } ∧ (s.link ref7.node).presence = true ∧
     0 < (s.link ref7.node).reserved ∧ r.done + 1 < r.count ∧ r.stop = false) ∧
    (let r : Command := { cmd with kind := .write, state := .inService, held := 2, done := 1, gathered := [[], []] }
     let s : State := serves r (.writeBlock 11 []) shelf
     isBay 0 = true ∧ s.Settled ∧ (s.bay 0).op = some (.writeBlock 11 []) ∧ (s.bay 0).opNumber = 5 ∧
     (s.bay 0).service = some (.command ref7) ∧ s.record ref7 = some r ∧ r.kind = .write ∧
     s.loan r.loan.slot = some { loan with commands := 1 } ∧ (s.link ref7.node).presence = true ∧
     0 < (s.link ref7.node).reserved ∧ r.done + 1 = r.count) ∧
    (let r : Command := { cmd with kind := .write, state := .inService, held := 2, gathered := [[], []], stop := true }
     let l : Loan := { loan with state := .ending, endReason := some .reclaimed, commands := 2 }
     let s : State := lent l (serves r (.writeBlock 10 []) shelf)
     isBay 0 = true ∧ s.Settled ∧ (s.bay 0).op = some (.writeBlock 10 []) ∧ (s.bay 0).opNumber = 5 ∧
     (s.bay 0).service = some (.command ref7) ∧ s.record ref7 = some r ∧ r.kind = .write ∧
     s.loan r.loan.slot = some l ∧ 1 < l.commands ∧ l.endReason ≠ some .linkLost ∧
     (s.link ref7.node).presence = true ∧ 0 < (s.link ref7.node).reserved ∧ r.done + 1 < r.count ∧ r.stop = true) ∧
    (let r : Command := { cmd with kind := .write, state := .inService, held := 2, gathered := [[], []] }
     let s : State := serves r (.writeBlock 10 []) shelf
     isBay 0 = true ∧ s.Settled ∧ (s.bay 0).op = some (.writeBlock 10 []) ∧ (s.bay 0).opNumber = 5 ∧
     (s.bay 0).service = some (.command ref7) ∧ s.record ref7 = some r ∧ r.kind = .write ∧
     s.loan r.loan.slot = some { loan with commands := 1 } ∧ (s.link ref7.node).presence = true ∧
     0 < (s.link ref7.node).reserved ∧ 10 ∉ (s.bay 0).weak) := by
  simp only [State.Settled]
  refine ⟨?_, ?_, ?_, ?_⟩ <;> decide +kernel

theorem witness_CopyChunksMove :
    (let w : Twin := { twin with state := .copying, channel := some 0, next := 0 }
     let s : State := ({ copying shelf with channels := [{ Channel.free with busy := true, phase := .reading, chunkCount := 32, held := 32, filled := [[]] }, Channel.free] }).modBay 0 fun x => { x with service := some (.chunkRead 0), op := some (.readBlock 1), opNumber := 5, opLimit := 200 }
     isBay 0 = true ∧ s.Settled ∧ 0 < s.channels.length ∧ (s.bay 0).op = some (.readBlock 1) ∧
     (s.bay 0).opNumber = 5 ∧ (s.bay 0).service = some (.chunkRead 0) ∧ (s.channel 0).endStatus = none ∧
     s.twin (s.channel 0).twin = some w ∧ w.target ≠ 0 ∧ (s.channel 0).filled.length + 1 < (s.channel 0).chunkCount) ∧
    (let w : Twin := { twin with state := .copying, channel := some 0, next := 0 }
     let s : State := ({ copying shelf with channels := [{ Channel.free with busy := true, phase := .reading, chunkCount := 2, held := 2, filled := [[]] }, Channel.free] }).modBay 0 fun x => { x with service := some (.chunkRead 0), op := some (.readBlock 1), opNumber := 5, opLimit := 200 }
     isBay 0 = true ∧ s.Settled ∧ 0 < s.channels.length ∧ (s.bay 0).op = some (.readBlock 1) ∧
     (s.bay 0).opNumber = 5 ∧ (s.bay 0).service = some (.chunkRead 0) ∧ (s.channel 0).endStatus = none ∧
     s.twin (s.channel 0).twin = some w ∧ w.target ≠ 0 ∧ (s.channel 0).filled.length + 1 = (s.channel 0).chunkCount) ∧
    (let w : Twin := { twin with state := .copying, channel := some 0, next := 0 }
     let s : State := ({ copying shelf with channels := [{ Channel.free with busy := true, phase := .writing, chunkCount := 32, held := 32 }, Channel.free] }).modBay 1 fun x => { x with service := some (.chunkWrite 0), op := some (.writeBlock 31 []), opNumber := 5 }
     isBay 1 = true ∧ s.Settled ∧ 0 < s.channels.length ∧ (s.bay 1).op = some (.writeBlock 31 []) ∧
     (s.bay 1).opNumber = 5 ∧ (s.bay 1).service = some (.chunkWrite 0) ∧ (s.channel 0).endStatus = none ∧
     (s.channel 0).twin < s.twins.length ∧ s.twin (s.channel 0).twin = some w ∧ w.source ≠ 1 ∧
     31 + 1 - (s.channel 0).chunkFirst = (s.channel 0).chunkCount ∧ w.next + (s.channel 0).chunkCount ≤ w.last) ∧
    (let w : Twin := { twin with state := .copying, channel := some 0, next := 0 }
     let s : State := ({ copying shelf with channels := [{ Channel.free with busy := true, phase := .writing, chunkCount := 32, held := 32, filled := [[], []] }, Channel.free] }).modBay 1 fun x => { x with service := some (.chunkWrite 0), op := some (.writeBlock 30 []), opNumber := 5 }
     isBay 1 = true ∧ s.Settled ∧ 0 < s.channels.length ∧ (s.bay 1).op = some (.writeBlock 30 []) ∧
     (s.bay 1).opNumber = 5 ∧ (s.bay 1).service = some (.chunkWrite 0) ∧ (s.channel 0).endStatus = none ∧
     (s.channel 0).twin < s.twins.length ∧ s.twin (s.channel 0).twin = some w ∧ w.source ≠ 1 ∧
     30 + 1 - (s.channel 0).chunkFirst ≠ (s.channel 0).chunkCount) ∧
    (let w : Twin := { twin with state := .copying, channel := some 0, next := 32 }
     let s : State := { ({ copying shelf with channels := [{ Channel.free with busy := true, phase := .writing, chunkFirst := 32, chunkCount := 32, held := 32 }, Channel.free] }).setTwin 0 (some w) with poolFree := 352 }.modBay 1 fun x => { x with service := some (.chunkWrite 0), op := some (.writeBlock 63 []), opNumber := 5 }
     isBay 1 = true ∧ s.Settled ∧ 0 < s.channels.length ∧ (s.bay 1).op = some (.writeBlock 63 []) ∧
     (s.bay 1).opNumber = 5 ∧ (s.bay 1).service = some (.chunkWrite 0) ∧ (s.channel 0).endStatus = none ∧
     (s.channel 0).twin < s.twins.length ∧ s.twin (s.channel 0).twin = some w ∧ w.source ≠ 1 ∧
     63 + 1 - (s.channel 0).chunkFirst = (s.channel 0).chunkCount ∧ w.last < w.next + (s.channel 0).chunkCount ∧
     s.waits = []) ∧
    (let s : State := ({ copying shelf with channels := [{ Channel.free with busy := true, phase := .reading, chunkCount := 2, held := 2, filled := [[]], endStatus := some .halted }, Channel.free] }).modBay 0 fun x => { x with service := some (.chunkRead 0), op := some (.readBlock 1), opNumber := 5, opLimit := 200 }
     isBay 0 = true ∧ s.Settled ∧ 0 < s.channels.length ∧ (s.bay 0).op = some (.readBlock 1) ∧
     (s.bay 0).opNumber = 5 ∧ (s.bay 0).service = some (.chunkRead 0) ∧ (s.channel 0).endStatus = some .halted ∧
     (s.channel 0).filled.length + 1 = (s.channel 0).chunkCount) ∧
    (let s : State := ({ copying shelf with channels := [{ Channel.free with busy := true, phase := .reading, chunkCount := 9, held := 9, filled := [[]], endStatus := some .aborted }, Channel.free] }).modBay 0 fun x => { x with service := some (.chunkRead 0), op := some (.readBlock 1), opNumber := 5, opLimit := 200 }
     isBay 0 = true ∧ s.Settled ∧ 0 < s.channels.length ∧ (s.bay 0).op = some (.readBlock 1) ∧
     (s.bay 0).opNumber = 5 ∧ (s.bay 0).service = some (.chunkRead 0) ∧ (s.channel 0).endStatus = some .aborted ∧
     (s.channel 0).filled.length + 1 ≠ (s.channel 0).chunkCount) ∧
    (let s : State := ({ copying shelf with channels := [{ Channel.free with busy := true, phase := .reading, chunkCount := 9, held := 9, filled := [[]], endStatus := some .halted }, Channel.free] }).modBay 0 fun x => { x with service := some (.chunkRead 0), op := some (.readBlock 1), opNumber := 5, opLimit := 200 }
     isBay 0 = true ∧ s.Settled ∧ 0 < s.channels.length ∧ (s.bay 0).op = some (.readBlock 1) ∧
     (s.bay 0).opNumber = 5 ∧ (s.bay 0).service = some (.chunkRead 0) ∧ (s.channel 0).endStatus = some .halted ∧
     (s.channel 0).filled.length + 1 ≠ (s.channel 0).chunkCount) ∧
    (let w : Twin := { twin with state := .copying, channel := some 0, next := 0 }
     let s : State := ({ copying shelf with channels := [{ Channel.free with busy := true, phase := .writing, chunkCount := 2, held := 2, filled := [[], []], endStatus := some .halted }, Channel.free] }).modBay 1 fun x => { x with service := some (.chunkWrite 0), op := some (.writeBlock 1 []), opNumber := 5, opLimit := 200, weak := [1] }
     isBay 1 = true ∧ s.Settled ∧ 0 < s.channels.length ∧ (s.bay 1).op = some (.writeBlock 1 []) ∧
     (s.bay 1).opNumber = 5 ∧ (s.bay 1).service = some (.chunkWrite 0) ∧ s.twin (s.channel 0).twin = some w ∧
     (s.channel 0).endStatus = some .halted ∧ 1 + 1 - (s.channel 0).chunkFirst = (s.channel 0).chunkCount) ∧
    (let w : Twin := { twin with state := .copying, channel := some 0, next := 0 }
     let s : State := ({ copying shelf with channels := [{ Channel.free with busy := true, phase := .writing, chunkCount := 3, held := 3, filled := [[], [], []], endStatus := some .aborted }, Channel.free] }).modBay 1 fun x => { x with service := some (.chunkWrite 0), op := some (.writeBlock 1 []), opNumber := 5, opLimit := 200, weak := [1] }
     isBay 1 = true ∧ s.Settled ∧ 0 < s.channels.length ∧ (s.bay 1).op = some (.writeBlock 1 []) ∧
     (s.bay 1).opNumber = 5 ∧ (s.bay 1).service = some (.chunkWrite 0) ∧ s.twin (s.channel 0).twin = some w ∧
     (s.channel 0).endStatus = some .aborted ∧ 1 + 1 - (s.channel 0).chunkFirst ≠ (s.channel 0).chunkCount) ∧
    (let w : Twin := { twin with state := .copying, channel := some 0, next := 0 }
     let s : State := ({ copying shelf with channels := [{ Channel.free with busy := true, phase := .writing, chunkCount := 3, held := 3, filled := [[], [], []], endStatus := some .halted }, Channel.free] }).modBay 1 fun x => { x with service := some (.chunkWrite 0), op := some (.writeBlock 1 []), opNumber := 5, opLimit := 200, weak := [1] }
     isBay 1 = true ∧ s.Settled ∧ 0 < s.channels.length ∧ (s.bay 1).op = some (.writeBlock 1 []) ∧
     (s.bay 1).opNumber = 5 ∧ (s.bay 1).service = some (.chunkWrite 0) ∧ s.twin (s.channel 0).twin = some w ∧
     (s.channel 0).endStatus = some .halted ∧ 1 + 1 - (s.channel 0).chunkFirst ≠ (s.channel 0).chunkCount) ∧
    (let s : State := ({ copying shelf with channels := [{ Channel.free with busy := true, phase := .reading, chunkCount := 9, held := 9, filled := [[]] }, Channel.free] }).modBay 0 fun x => { x with service := some (.chunkRead 0), op := some (.readBlock 1), opNumber := 5, opLimit := 200 }
     isBay 0 = true ∧ s.Settled ∧ 0 < s.channels.length ∧ (s.bay 0).op = some (.readBlock 1) ∧
     (s.bay 0).opNumber = 5 ∧ (s.bay 0).service = some (.chunkRead 0)) ∧
    (let w : Twin := { twin with state := .copying, channel := some 0, next := 0 }
     let s : State := ({ copying shelf with channels := [{ Channel.free with busy := true, phase := .writing, chunkCount := 3, held := 3, filled := [[], [], []], endStatus := some .halted }, Channel.free] }).modBay 1 fun x => { x with service := some (.chunkWrite 0), op := some (.writeBlock 1 []), opNumber := 5, opLimit := 200, weak := [1] }
     isBay 1 = true ∧ s.Settled ∧ 0 < s.channels.length ∧ (s.bay 1).op = some (.writeBlock 1 []) ∧
     (s.bay 1).opNumber = 5 ∧ (s.bay 1).service = some (.chunkWrite 0) ∧ s.twin (s.channel 0).twin = some w) := by
  simp only [State.Settled]
  refine ⟨?_, ?_, ?_, ?_, ?_, ?_, ?_, ?_, ?_, ?_, ?_, ?_, ?_⟩ <;> decide +kernel

theorem witness_WeakListJoin :
    (let s : State := (shelf).modBay 0 fun x => { x with weak := [9] }
     0 < s.bays.length ∧ 9 ∈ (s.bay 0).weak) ∧
    (let s : State := shelf
     23 < s.bays.length ∧ 9 ∉ (s.bay 23).weak ∧ (s.bay 23).weak.length < 15) ∧
    (let s : State := (shelf).modBay 0 fun x => { x with weak := List.range' 10 15 }
     9 ∉ (s.bay 0).weak ∧ (s.bay 0).weak.length = 15) ∧
    (let s : State := (shelf).modBay 0 fun x => { x with weak := List.range' 10 16 }
     9 ∉ (s.bay 0).weak ∧ (s.bay 0).weak.length = 16) := by
  refine ⟨?_, ?_, ?_, ?_⟩ <;> decide +kernel

theorem witness_VerifyRunMovesCursor :
    (let s : State := (shelf).modBay 0 fun x => { x with service := some .verify, op := some (.verifyRun 36 64), opNumber := 5, cursor := 36, weak := [40, 99] }
     isBay 0 = true ∧ s.Settled ∧ (s.bay 0).op = some (.verifyRun 36 64) ∧ (s.bay 0).opNumber = 5) ∧
    (let s : State := (shelf).modBay 0 fun x => { x with service := some .verify, op := some (.verifyRun 36 64), opNumber := 5, cursor := 36, weak := [40, 99] }
     isBay 0 = true ∧ s.Settled ∧ (s.bay 0).op = some (.verifyRun 36 64) ∧ (s.bay 0).opNumber = 5 ∧ 36 ≤ 99 ∧
     99 < 36 + 64 ∧ 99 ∈ (s.bay 0).weak) ∧
    (let s : State := (shelf).modBay 0 fun x => { x with service := some .verify, op := some (.verifyRun 36 64), opNumber := 5, cursor := 36, weak := [40, 99] }
     isBay 0 = true ∧ s.Settled ∧ (s.bay 0).op = some (.verifyRun 36 64) ∧ (s.bay 0).opNumber = 5 ∧ 36 ≤ 36 ∧
     36 < 36 + 64 ∧ 36 ∉ (s.bay 0).weak) := by
  simp only [State.Settled]
  refine ⟨?_, ?_, ?_⟩ <;> decide +kernel

theorem witness_BayPresenceMoves :
    (let s : State := shelf
     isBay 2 = true ∧ 2 < s.bays.length ∧ (s.bay 2).presence = false ∧ (s.bay 2).state = .empty ∧
     (s.profile 2).enabled = true) ∧
    (let s : State := { shelf with settings := { shelf.settings with profiles := List.replicate 24 { Profile.default with enabled := false } } }
     isBay 2 = true ∧ 2 < s.bays.length ∧ (s.bay 2).presence = false ∧ (s.bay 2).state = .empty ∧
     (s.profile 2).enabled = false) ∧
    (let s : State := shelf.modBay 2 fun x => { x with state := .faulted }
     isBay 2 = true ∧ 2 < s.bays.length ∧ (s.bay 2).presence = false ∧ (s.bay 2).state ≠ .empty) ∧
    (let s : State := { waits { waiter with bay := 2 } (bayIn 2 .spinWait shelf) with spinQueue := [2] }
     isBay 2 = true ∧ (s.bay 2).presence = true ∧ (s.bay 2).state = .spinWait ∧ s.quiet ∧ ∃ e ∈ s.waits, e.bay = 2 ∧
     isNode e.node = true ∧ (s.link e.node).presence = true ∧ s.waitCount e.node ≤ (s.link e.node).reserved) ∧
    (let s : State := waits { waiter with bay := 2 } ((bayIn 2 .spinning shelf).modBay 2 fun x => { x with op := some .spinUp, opNumber := 5, opLimit := 200, opTimer := 0, weak := [3], cursor := 3 })
     isBay 2 = true ∧ (s.bay 2).presence = true ∧ (s.bay 2).state = .spinning ∧ s.quiet ∧ ∃ e ∈ s.waits, e.bay = 2 ∧
     isNode e.node = true ∧ (s.link e.node).presence = true ∧ s.waitCount e.node ≤ (s.link e.node).reserved) ∧
    (let s : State := bayIn 2 .stopping shelf
     isBay 2 = true ∧ (s.bay 2).presence = true ∧ s.Settled ∧ (s.bay 2).state = .stopping) ∧
    (let s : State := bayIn 2 .released shelf
     isBay 2 = true ∧ (s.bay 2).presence = true ∧ s.Settled ∧ (s.bay 2).state = .released) ∧
    (let s : State := bayIn 2 .faulted shelf
     isBay 2 = true ∧ (s.bay 2).presence = true ∧ s.Settled ∧ (s.bay 2).state = .faulted) := by
  simp only [State.Settled, quiet_iff]
  refine ⟨?_, ?_, ?_, ?_, ?_, ?_, ?_, ?_⟩ <;> decide +kernel

theorem witness_FaultLeavesNoLoan :
    (let r : Command := { cmd with state := .inService, held := 2 }
     let s : State := (serves r (.readBlock 10) shelf).modBay 0 fun x => { x with opTimer := 200 }
     isBay 0 = true ∧ s.Shaped ∧ (s.bay 0).state = .ready ∧ (s.bay 0).op = some (.readBlock 10) ∧
     isService (.readBlock 10) = true ∧ (s.bay 0).opLimit ≤ (s.bay 0).opTimer) ∧
    (let r : Command := { cmd with state := .inService, held := 2 }
     let s : State := bayIn 0 .draining (serves r (.readBlock 10) shelf)
     isBay 0 = true ∧ s.Shaped ∧ (s.bay 0).state = .draining ∧ (s.bay 0).presence = true) ∧
    (let l : Loan := { loan with kind := .view }
     let w : Twin := twin
     let s : State := lent l ((shelf.setTwin 0 (some w)).modBay 0 fun x => { x with op := some (.verifyRun 0 8), service := some .verify, opNumber := 5, opTimer := 200, opLimit := 200 })
     isBay 0 = true ∧ s.Shaped ∧ (s.bay 0).state = .ready ∧ (s.bay 0).op.any isService = true ∧
     (s.bay 0).opLimit ≤ (s.bay 0).opTimer ∧ s.waits = [] ∧ s.twin 0 = some w ∧ w.retiring = false ∧ w.state = .live ∧
     s.twins.tail = List.replicate 5 none ∧ s.loan 0 = some l ∧ l.state = .active ∧ l.move = none ∧
     l.notice ≠ some .loanEnded ∧ s.records = [] ∧ l.placedBay = 0 ∧ w.source = 0 ∧ w.target ≠ 0 ∧
     (s.bay w.target).state = .ready ∧ l.kind = .view ∧ l.viaTwin = none ∧ l.range = some ⟨0, 49⟩ ∧ w.first ≤ 0 ∧
     49 ≤ w.last) ∧
    (let l : Loan := { loan with kind := .view }
     let w : Twin := twin
     let s : State := lent l (shelf.setTwin 0 (some w))
     isBay 0 = true ∧ s.Shaped ∧ (s.bay 0).state = .ready ∧ (s.bay 0).presence = true ∧ s.waits = [] ∧
     s.twin 0 = some w ∧ w.retiring = false ∧ w.state = .live ∧ s.twins.tail = List.replicate 5 none ∧
     s.loan 0 = some l ∧ l.state = .active ∧ l.move = none ∧ l.notice ≠ some .loanEnded ∧ s.records = [] ∧
     l.placedBay = 0 ∧ w.source = 0 ∧ w.target ≠ 0 ∧ (s.bay w.target).state = .ready ∧ l.kind = .view ∧
     l.viaTwin = none ∧ l.range = some ⟨0, 49⟩ ∧ w.first ≤ 0 ∧ 49 ≤ w.last) ∧
    (let l : Loan := { loan with kind := .view, placedBay := 1, viaTwin := some 0 }
     let w : Twin := twin
     let s : State := lent l ((shelf.setTwin 0 (some w)).modBay 1 fun x => { x with op := some (.verifyRun 0 8), service := some .verify, opNumber := 5, opTimer := 200, opLimit := 200 })
     isBay 1 = true ∧ s.Shaped ∧ (s.bay 1).state = .ready ∧ (s.bay 1).op.any isService = true ∧
     (s.bay 1).opLimit ≤ (s.bay 1).opTimer ∧ s.waits = [] ∧ s.twin 0 = some w ∧ w.retiring = false ∧ w.state = .live ∧
     s.twins.tail = List.replicate 5 none ∧ s.loan 0 = some l ∧ l.state = .active ∧ l.move = none ∧
     l.notice ≠ some .loanEnded ∧ s.records = [] ∧ l.placedBay = 1 ∧ w.target = 1 ∧ w.source ≠ 1 ∧
     (s.bay w.source).state = .ready ∧ l.viaTwin = some 0) ∧
    (let l : Loan := { loan with kind := .view, placedBay := 1, viaTwin := some 0 }
     let w : Twin := twin
     let s : State := lent l (shelf.setTwin 0 (some w))
     isBay 1 = true ∧ s.Shaped ∧ (s.bay 1).state = .ready ∧ (s.bay 1).presence = true ∧ s.waits = [] ∧
     s.twin 0 = some w ∧ w.retiring = false ∧ w.state = .live ∧ s.twins.tail = List.replicate 5 none ∧
     s.loan 0 = some l ∧ l.state = .active ∧ l.move = none ∧ l.notice ≠ some .loanEnded ∧ s.records = [] ∧
     l.placedBay = 1 ∧ w.target = 1 ∧ w.source ≠ 1 ∧ (s.bay w.source).state = .ready ∧ l.viaTwin = some 0) ∧
    (let s : State := waits waiter ((lent loan shelf).modBay 0 fun x => { x with op := some (.verifyRun 0 8), service := some .verify, opNumber := 5, opTimer := 200, opLimit := 200 })
     isBay 0 = true ∧ s.Shaped ∧ (s.bay 0).state = .ready ∧ (s.bay 0).op = some (.verifyRun 0 8) ∧
     isService (.verifyRun 0 8) = true ∧ (s.bay 0).opLimit ≤ (s.bay 0).opTimer ∧ s.quiet ∧ ∃ e ∈ s.waits, e.bay = 0 ∧
     isNode e.node = true ∧ (s.link e.node).presence = true ∧ s.waitCount e.node ≤ (s.link e.node).reserved) ∧
    (let s : State := waits waiter (lent loan shelf)
     isBay 0 = true ∧ s.Shaped ∧ (s.bay 0).state = .ready ∧ (s.bay 0).presence = true ∧ s.quiet ∧
     ∃ e ∈ s.waits, e.bay = 0 ∧ isNode e.node = true ∧ (s.link e.node).presence = true ∧
     s.waitCount e.node ≤ (s.link e.node).reserved) ∧
    (let r : Command := { cmd with kind := .write, state := .inService, held := 2, done := 1, gathered := [[], []] }
     let l : Loan := { loan with commands := 1 }
     let s : State := (serves r (.writeBlock 11 []) shelf).modBay 0 fun x => { x with opTimer := 200 }
     isBay 0 = true ∧ s.Shaped ∧ (s.bay 0).state = .ready ∧ (s.bay 0).op.any isService = true ∧
     (s.bay 0).opLimit ≤ (s.bay 0).opTimer ∧ (s.bay 0).service = some (.command ref7) ∧ (s.bay 0).chosen = none ∧
     s.records.filter (fun x => x.ref == ref7) = [r] ∧ r.state = .inService ∧ r.replied = false ∧
     s.loan r.loan.slot = some l ∧ l.endReason ≠ some .linkLost ∧ l.move = none ∧
     (∀ x ∈ s.bays, ∀ m ∈ x.ring, ref7 ∉ m.queued) ∧ (s.link ref7.node).presence = true ∧
     0 < (s.link ref7.node).reserved ∧ r.kind = .write) ∧
    (let r : Command := { cmd with state := .inService, held := 2, done := 1 }
     let l : Loan := { loan with commands := 1 }
     let s : State := (serves r (.readBlock 11) shelf).modBay 0 fun x => { x with opTimer := 200 }
     isBay 0 = true ∧ s.Shaped ∧ (s.bay 0).state = .ready ∧ (s.bay 0).op.any isService = true ∧
     (s.bay 0).opLimit ≤ (s.bay 0).opTimer ∧ (s.bay 0).service = some (.command ref7) ∧ (s.bay 0).chosen = none ∧
     s.records.filter (fun x => x.ref == ref7) = [r] ∧ r.state = .inService ∧ r.replied = false ∧
     s.loan r.loan.slot = some l ∧ l.endReason ≠ some .linkLost ∧ l.move = none ∧
     (∀ x ∈ s.bays, ∀ m ∈ x.ring, ref7 ∉ m.queued) ∧ (s.link ref7.node).presence = true ∧
     0 < (s.link ref7.node).reserved ∧ r.kind = .read ∧ (s.link 1).waitingData = [] ∧ r.count - r.done < r.held) ∧
    (let r : Command := { cmd with state := .inService, held := 1, done := 1 }
     let l : Loan := { loan with commands := 1 }
     let s : State := (serves r (.readBlock 11) shelf).modBay 0 fun x => { x with opTimer := 200 }
     isBay 0 = true ∧ s.Shaped ∧ (s.bay 0).state = .ready ∧ (s.bay 0).op.any isService = true ∧
     (s.bay 0).opLimit ≤ (s.bay 0).opTimer ∧ (s.bay 0).service = some (.command ref7) ∧ (s.bay 0).chosen = none ∧
     s.records.filter (fun x => x.ref == ref7) = [r] ∧ r.state = .inService ∧ r.replied = false ∧
     s.loan r.loan.slot = some l ∧ l.endReason ≠ some .linkLost ∧ l.move = none ∧
     (∀ x ∈ s.bays, ∀ m ∈ x.ring, ref7 ∉ m.queued) ∧ (s.link ref7.node).presence = true ∧
     0 < (s.link ref7.node).reserved ∧ r.kind = .read ∧ (s.link 1).waitingData = [] ∧ r.held ≤ r.count - r.done) ∧
    (let r : Command := { cmd with state := .inService, held := 2, done := 1 }
     let l : Loan := { loan with commands := 1 }
     let s : State := ((serves r (.readBlock 11) shelf).modLink 1 fun x => { x with waitingData := [{ tag := 7, block := 10, index := 0, bytes := [] }] }).modBay 0 fun x => { x with opTimer := 200 }
     isBay 0 = true ∧ s.Shaped ∧ (s.bay 0).state = .ready ∧ (s.bay 0).op.any isService = true ∧
     (s.bay 0).opLimit ≤ (s.bay 0).opTimer ∧ (s.bay 0).service = some (.command ref7) ∧ (s.bay 0).chosen = none ∧
     s.records.filter (fun x => x.ref == ref7) = [r] ∧ r.state = .inService ∧ r.replied = false ∧
     s.loan r.loan.slot = some l ∧ l.endReason ≠ some .linkLost ∧ l.move = none ∧
     (∀ x ∈ s.bays, ∀ m ∈ x.ring, ref7 ∉ m.queued) ∧ r.kind = .read ∧ ∃ w ∈ (s.link 1).waitingData, w.tag = 7) ∧
    (let r : Command := { cmd with kind := .stream, total := 9, segSize := 4, count := 4, segFirst := 14, delivered := 5, done := 1, state := .inService, held := 3 }
     let l : Loan := { loan with commands := 1 }
     let s : State := (serves r (.readBlock 15) shelf).modBay 0 fun x => { x with opTimer := 200 }
     isBay 0 = true ∧ s.Shaped ∧ (s.bay 0).state = .ready ∧ (s.bay 0).op.any isService = true ∧
     (s.bay 0).opLimit ≤ (s.bay 0).opTimer ∧ (s.bay 0).service = some (.command ref7) ∧ (s.bay 0).chosen = none ∧
     s.records.filter (fun x => x.ref == ref7) = [r] ∧ r.state = .inService ∧ r.replied = false ∧
     s.loan r.loan.slot = some l ∧ l.endReason ≠ some .linkLost ∧ l.move = none ∧
     (∀ x ∈ s.bays, ∀ m ∈ x.ring, ref7 ∉ m.queued) ∧ r.kind = .stream ∧ l.state = .active ∧ l.placedBay = 0 ∧
     (∀ v ∈ s.twins, v = none)) ∧
    (let r : Command := { cmd with kind := .stream, total := 9, segSize := 4, count := 4, segFirst := 14, delivered := 5, done := 1, state := .inService, held := 3 }
     let l : Loan := { loan with kind := .view, commands := 1 }
     let w : Twin := twin
     let s : State := (lent l (serves r (.readBlock 15) (shelf.setTwin 0 (some w)))).modBay 0 fun x => { x with opTimer := 200 }
     isBay 0 = true ∧ s.Shaped ∧ (s.bay 0).state = .ready ∧ (s.bay 0).op.any isService = true ∧
     (s.bay 0).opLimit ≤ (s.bay 0).opTimer ∧ (s.bay 0).service = some (.command ref7) ∧ (s.bay 0).chosen = none ∧
     s.records.filter (fun x => x.ref == ref7) = [r] ∧ r.state = .inService ∧ r.replied = false ∧
     s.loan r.loan.slot = some l ∧ l.endReason ≠ some .linkLost ∧ l.move = none ∧
     (∀ x ∈ s.bays, ∀ m ∈ x.ring, ref7 ∉ m.queued) ∧ r.kind = .stream ∧ l.state = .active ∧ l.placedBay = 0 ∧
     s.waits = [] ∧ s.recordsOf 0 = [ref7] ∧ l.notice ≠ some .loanEnded ∧ s.twin 0 = some w ∧ w.retiring = false ∧
     w.state = .live ∧ s.twins.tail = List.replicate 5 none ∧ w.source = 0 ∧ w.target ≠ 0 ∧
     (s.bay w.target).state = .ready ∧ l.kind = .view ∧ l.viaTwin = none ∧ l.range = some ⟨0, 49⟩ ∧ w.first ≤ 0 ∧
     49 ≤ w.last) ∧
    (let r : Command := { cmd with kind := .write, state := .inService, held := 2, done := 1, gathered := [[], []] }
     let l : Loan := { loan with commands := 1 }
     let s : State := (serves r (.writeBlock 11 []) shelf).modBay 0 fun x => { x with opTimer := 9 }
     isBay 0 = true ∧ s.Shaped ∧ (s.bay 0).state = .ready ∧ (s.bay 0).presence = true ∧
     (s.bay 0).service = some (.command ref7) ∧ (s.bay 0).chosen = none ∧
     s.records.filter (fun x => x.ref == ref7) = [r] ∧ r.state = .inService ∧ r.replied = false ∧
     s.loan r.loan.slot = some l ∧ l.endReason ≠ some .linkLost ∧ l.move = none ∧
     (∀ x ∈ s.bays, ∀ m ∈ x.ring, ref7 ∉ m.queued) ∧ (s.link ref7.node).presence = true ∧
     0 < (s.link ref7.node).reserved ∧ r.kind = .write) ∧
    (let r : Command := { cmd with state := .inService, held := 2, done := 1 }
     let l : Loan := { loan with commands := 1 }
     let s : State := (serves r (.readBlock 11) shelf).modBay 0 fun x => { x with opTimer := 9 }
     isBay 0 = true ∧ s.Shaped ∧ (s.bay 0).state = .ready ∧ (s.bay 0).presence = true ∧
     (s.bay 0).service = some (.command ref7) ∧ (s.bay 0).chosen = none ∧
     s.records.filter (fun x => x.ref == ref7) = [r] ∧ r.state = .inService ∧ r.replied = false ∧
     s.loan r.loan.slot = some l ∧ l.endReason ≠ some .linkLost ∧ l.move = none ∧
     (∀ x ∈ s.bays, ∀ m ∈ x.ring, ref7 ∉ m.queued) ∧ (s.link ref7.node).presence = true ∧
     0 < (s.link ref7.node).reserved ∧ r.kind = .read ∧ (s.link 1).waitingData = [] ∧ r.count - r.done < r.held) ∧
    (let r : Command := { cmd with state := .inService, held := 1, done := 1 }
     let l : Loan := { loan with commands := 1 }
     let s : State := (serves r (.readBlock 11) shelf).modBay 0 fun x => { x with opTimer := 9 }
     isBay 0 = true ∧ s.Shaped ∧ (s.bay 0).state = .ready ∧ (s.bay 0).presence = true ∧
     (s.bay 0).service = some (.command ref7) ∧ (s.bay 0).chosen = none ∧
     s.records.filter (fun x => x.ref == ref7) = [r] ∧ r.state = .inService ∧ r.replied = false ∧
     s.loan r.loan.slot = some l ∧ l.endReason ≠ some .linkLost ∧ l.move = none ∧
     (∀ x ∈ s.bays, ∀ m ∈ x.ring, ref7 ∉ m.queued) ∧ (s.link ref7.node).presence = true ∧
     0 < (s.link ref7.node).reserved ∧ r.kind = .read ∧ (s.link 1).waitingData = [] ∧ r.held ≤ r.count - r.done) ∧
    (let r : Command := { cmd with state := .inService, held := 2, done := 1 }
     let l : Loan := { loan with commands := 1 }
     let s : State := ((serves r (.readBlock 11) shelf).modLink 1 fun x => { x with waitingData := [{ tag := 7, block := 10, index := 0, bytes := [] }] }).modBay 0 fun x => { x with opTimer := 9 }
     isBay 0 = true ∧ s.Shaped ∧ (s.bay 0).state = .ready ∧ (s.bay 0).presence = true ∧
     (s.bay 0).service = some (.command ref7) ∧ (s.bay 0).chosen = none ∧
     s.records.filter (fun x => x.ref == ref7) = [r] ∧ r.state = .inService ∧ r.replied = false ∧
     s.loan r.loan.slot = some l ∧ l.endReason ≠ some .linkLost ∧ l.move = none ∧
     (∀ x ∈ s.bays, ∀ m ∈ x.ring, ref7 ∉ m.queued) ∧ r.kind = .read ∧ ∃ w ∈ (s.link 1).waitingData, w.tag = 7) ∧
    (let r : Command := { cmd with kind := .stream, total := 9, segSize := 4, count := 4, segFirst := 14, delivered := 5, done := 1, state := .inService, held := 3 }
     let l : Loan := { loan with commands := 1 }
     let s : State := (serves r (.readBlock 15) shelf).modBay 0 fun x => { x with opTimer := 9 }
     isBay 0 = true ∧ s.Shaped ∧ (s.bay 0).state = .ready ∧ (s.bay 0).presence = true ∧
     (s.bay 0).service = some (.command ref7) ∧ (s.bay 0).chosen = none ∧
     s.records.filter (fun x => x.ref == ref7) = [r] ∧ r.state = .inService ∧ r.replied = false ∧
     s.loan r.loan.slot = some l ∧ l.endReason ≠ some .linkLost ∧ l.move = none ∧
     (∀ x ∈ s.bays, ∀ m ∈ x.ring, ref7 ∉ m.queued) ∧ r.kind = .stream ∧ l.state = .active ∧ l.placedBay = 0 ∧
     (∀ v ∈ s.twins, v = none)) ∧
    (let r : Command := { cmd with kind := .stream, total := 9, segSize := 4, count := 4, segFirst := 14, delivered := 5, done := 1, state := .inService, held := 3 }
     let l : Loan := { loan with kind := .view, commands := 1 }
     let w : Twin := twin
     let s : State := (lent l (serves r (.readBlock 15) (shelf.setTwin 0 (some w)))).modBay 0 fun x => { x with opTimer := 9 }
     isBay 0 = true ∧ s.Shaped ∧ (s.bay 0).state = .ready ∧ (s.bay 0).presence = true ∧
     (s.bay 0).service = some (.command ref7) ∧ (s.bay 0).chosen = none ∧
     s.records.filter (fun x => x.ref == ref7) = [r] ∧ r.state = .inService ∧ r.replied = false ∧
     s.loan r.loan.slot = some l ∧ l.endReason ≠ some .linkLost ∧ l.move = none ∧
     (∀ x ∈ s.bays, ∀ m ∈ x.ring, ref7 ∉ m.queued) ∧ r.kind = .stream ∧ l.state = .active ∧ l.placedBay = 0 ∧
     s.waits = [] ∧ s.recordsOf 0 = [ref7] ∧ l.notice ≠ some .loanEnded ∧ s.twin 0 = some w ∧ w.retiring = false ∧
     w.state = .live ∧ s.twins.tail = List.replicate 5 none ∧ w.source = 0 ∧ w.target ≠ 0 ∧
     (s.bay w.target).state = .ready ∧ l.kind = .view ∧ l.viaTwin = none ∧ l.range = some ⟨0, 49⟩ ∧ w.first ≤ 0 ∧
     49 ≤ w.last) := by
  simp only [shaped_iff, quiet_iff]
  refine ⟨?_, ?_, ?_, ?_, ?_, ?_, ?_, ?_, ?_, ?_, ?_, ?_, ?_, ?_, ?_, ?_, ?_, ?_, ?_, ?_⟩ <;> decide +kernel

theorem witness_SpinAdmitFills :
    (let s : State := shelf
     s.spinQueue = []) ∧
    (let s : State := { (List.range' 2 4).foldl (fun s b => bayIn b .spinning s) shelf with spinQueue := [9] }
     s.settings.spinGroup ≤ s.spinningCount) ∧
    (let s : State := { bayIn 3 .spinWait (bayIn 2 .spinWait shelf) with spinQueue := [2, 3] }
     s.spinQueue = 2 :: [3] ∧ 2 < s.bays.length ∧ 2 ∉ [3] ∧ s.spinningCount < s.settings.spinGroup) ∧
    (let s : State := { (List.range' 3 5).foldl (fun s b => bayIn b .spinWait s) (bayIn 2 .spinning shelf) with spinQueue := [7, 4, 3, 6, 5] }
     s.spinQueue.Nodup ∧ (∀ b ∈ s.spinQueue, b < s.bays.length ∧ (s.bay b).state = .spinWait) ∧
     s.settings.spinGroup - s.spinningCount = 3) := by
  refine ⟨?_, ?_, ?_, ?_⟩ <;> decide +kernel

theorem witness_SpinUpMakesReady :
    (let s : State := (bayIn 2 .spinning shelf).modBay 2 fun x => { x with op := some .spinUp, opNumber := 5, opLimit := 200, opTimer := 0, weak := [3], cursor := 3 }
     isBay 2 = true ∧ (s.bay 2).opNumber = 5 ∧ (s.bay 2).op = some .spinUp) ∧
    (let s : State := (bayIn 2 .spinning shelf).modBay 2 fun x => { x with op := some .identify, opNumber := 5, opLimit := 200, opTimer := 0, weak := [3], cursor := 3 }
     isBay 2 = true ∧ (s.bay 2).opNumber = 5 ∧ (s.bay 2).op = some .identify ∧ 1 ≤ 1 ∧ 1 ≤ 4294967295) ∧
    (let s : State := (bayIn 2 .spinning shelf).modBay 2 fun x => { x with op := some .identify, opNumber := 5, opLimit := 200, opTimer := 0, weak := [3], cursor := 3 }
     isBay 2 = true ∧ (s.bay 2).opNumber = 5 ∧ (s.bay 2).op = some .identify ∧ 1 ≤ 4294967295 ∧
     4294967295 ≤ 4294967295) ∧
    (let s : State := waits { waiter with bay := 2 } ((bayIn 2 .spinning shelf).modBay 2 fun x => { x with op := some .identify, opNumber := 5, opLimit := 200, opTimer := 0, weak := [3], cursor := 3 })
     isBay 2 = true ∧ (s.bay 2).opNumber = 5 ∧ (s.bay 2).op = some .identify ∧ s.quiet ∧ ∃ e ∈ s.waits, e.bay = 2 ∧
     isNode e.node = true ∧ (s.link e.node).presence = true ∧ s.waitCount e.node ≤ (s.link e.node).reserved) ∧
    (let s : State := waits { waiter with bay := 2 } ((bayIn 2 .spinning shelf).modBay 2 fun x => { x with op := some .spinUp, opNumber := 5, opLimit := 200, opTimer := 200, weak := [3], cursor := 3 })
     isBay 2 = true ∧ (s.bay 2).opLimit ≤ (s.bay 2).opTimer ∧ (s.bay 2).op = some .spinUp ∧ s.quiet ∧
     ∃ e ∈ s.waits, e.bay = 2 ∧ isNode e.node = true ∧ (s.link e.node).presence = true ∧
     s.waitCount e.node ≤ (s.link e.node).reserved) ∧
    (let s : State := waits { waiter with bay := 2 } ((bayIn 2 .spinning shelf).modBay 2 fun x => { x with op := some .identify, opNumber := 5, opLimit := 200, opTimer := 200, weak := [3], cursor := 3 })
     isBay 2 = true ∧ (s.bay 2).opLimit ≤ (s.bay 2).opTimer ∧ (s.bay 2).op = some .identify ∧ s.quiet ∧
     ∃ e ∈ s.waits, e.bay = 2 ∧ isNode e.node = true ∧ (s.link e.node).presence = true ∧
     s.waitCount e.node ≤ (s.link e.node).reserved) ∧
    (let e : WaitEntry := { waiter with bay := 2, range := some ⟨59, 99⟩ }
     let s : State := waits e ((bayIn 2 .spinning shelf).modBay 2 fun x => { x with op := some .identify, opNumber := 5, opLimit := 200, opTimer := 0, weak := [3], cursor := 3 })
     isBay 2 = true ∧ (s.bay 2).opNumber = 5 ∧ (s.bay 2).op = some .identify ∧ 1 ≤ 60 ∧ 60 ≤ 4294967295 ∧ s.Shaped ∧
     s.waits = [e] ∧ e.bay = 2 ∧ e.masked = false ∧ isNode e.node = true ∧ (∀ w ∈ s.twins, w = none) ∧
     e.range = some ⟨59, 99⟩ ∧ 59 < 60 ∧ s.conflictsTable 2 e.kind e.range = false ∧ s.loan 0 = none ∧
     0 < (s.nodeEntry e.node).holdBase ∧ (s.link e.node).presence = true ∧ 0 < (s.link e.node).reserved) ∧
    (let e : WaitEntry := { waiter with bay := 2 }
     let s : State := waits e (lent loan ((bayIn 2 .spinning shelf).modBay 2 fun x => { x with op := some .identify, opNumber := 5, opLimit := 200, opTimer := 0, weak := [3], cursor := 3 }))
     isBay 2 = true ∧ (s.bay 2).opNumber = 5 ∧ (s.bay 2).op = some .identify ∧ s.Shaped ∧ s.waits = [e] ∧ e.bay = 2 ∧
     e.masked = false ∧ isNode e.node = true ∧ (∀ w ∈ s.twins, w = none) ∧ e.range = none ∧
     s.conflictsTable 2 e.kind e.range = false ∧ (∀ j, j < 1 → (s.loan j).isSome = true) ∧ s.loan 1 = none ∧
     0 < (s.nodeEntry e.node).holdBase ∧ (s.link e.node).presence = true ∧ 0 < (s.link e.node).reserved) := by
  simp only [shaped_iff, quiet_iff]
  refine ⟨?_, ?_, ?_, ?_, ?_, ?_, ?_, ?_⟩ <;> decide +kernel

theorem witness_ReleaseButtonReleases :
    (let s : State := { shelf with settings := { shelf.settings with profiles := List.replicate 24 { Profile.default with releasePermitted := false } } }
     isBay 0 = true ∧ (s.profile 0).releasePermitted = false) ∧
    (let s : State := shelf
     isBay 2 = true ∧ (s.bay 2).state ≠ .spinWait ∧ (s.bay 2).state ≠ .spinning ∧ (s.bay 2).state ≠ .ready) ∧
    (let s : State := { waits { waiter with bay := 2 } (bayIn 2 .spinWait shelf) with spinQueue := [2] }
     isBay 2 = true ∧ (s.profile 2).releasePermitted = true ∧ (s.bay 2).state = .spinWait ∧ s.quiet ∧
     ∃ e ∈ s.waits, e.bay = 2 ∧ isNode e.node = true ∧ (s.link e.node).presence = true ∧
     s.waitCount e.node ≤ (s.link e.node).reserved) ∧
    (let s : State := waits { waiter with bay := 2 } ((bayIn 2 .spinning shelf).modBay 2 fun x => { x with op := some .spinUp, opNumber := 5, opLimit := 200, opTimer := 0, weak := [3], cursor := 3 })
     isBay 2 = true ∧ (s.profile 2).releasePermitted = true ∧ (s.bay 2).state = .spinning ∧ s.quiet ∧
     ∃ e ∈ s.waits, e.bay = 2 ∧ isNode e.node = true ∧ (s.link e.node).presence = true ∧
     s.waitCount e.node ≤ (s.link e.node).reserved) ∧
    (let s : State := waits waiter (lent loan shelf)
     isBay 0 = true ∧ (s.profile 0).releasePermitted = true ∧ s.Shaped ∧ (s.bay 0).state = .ready ∧ s.quiet ∧
     ∃ e ∈ s.waits, e.bay = 0 ∧ isNode e.node = true ∧ (s.link e.node).presence = true ∧
     s.waitCount e.node ≤ (s.link e.node).reserved) ∧
    (let l : Loan := { loan with kind := .view }
     let w : Twin := twin
     let s : State := lent l (shelf.setTwin 0 (some w))
     isBay 0 = true ∧ (s.profile 0).releasePermitted = true ∧ s.Shaped ∧ (s.bay 0).state = .ready ∧ s.waits = [] ∧
     s.twin 0 = some w ∧ w.retiring = false ∧ s.twins.tail = List.replicate 5 none ∧ w.source ≠ w.target ∧
     s.loan 0 = some l ∧ l.state = .active ∧ l.placedBay = 0 ∧ l.move = none ∧ l.notice ≠ some .loanEnded ∧
     w.source = 0 ∧ w.state = .live ∧ (s.bay w.target).state = .ready ∧ l.kind = .view ∧ l.viaTwin = none ∧
     l.range = some ⟨0, 49⟩ ∧ w.first ≤ 0 ∧ 49 ≤ w.last ∧ (∀ r ∈ s.records, r.loan.slot ≠ 0)) ∧
    (let l : Loan := { loan with kind := .view, commands := 1 }
     let w : Twin := twin
     let s : State := lent l (serves { cmd with state := .inService, held := 2 } (.readBlock 10) (shelf.setTwin 0 (some w)))
     isBay 0 = true ∧ (s.profile 0).releasePermitted = true ∧ s.Shaped ∧ (s.bay 0).state = .ready ∧ s.waits = [] ∧
     s.twin 0 = some w ∧ w.retiring = false ∧ s.twins.tail = List.replicate 5 none ∧ w.source ≠ w.target ∧
     s.loan 0 = some l ∧ l.state = .active ∧ l.placedBay = 0 ∧ l.move = none ∧ l.notice ≠ some .loanEnded ∧
     w.source = 0 ∧ w.state = .live ∧ (s.bay w.target).state = .ready ∧ l.kind = .view ∧ l.viaTwin = none ∧
     l.range = some ⟨0, 49⟩ ∧ w.first ≤ 0 ∧ 49 ≤ w.last ∧ s.workOnBay 0 = true) ∧
    (let l : Loan := { loan with kind := .view }
     let w : Twin := { twin with state := .stale }
     let s : State := lent l (shelf.setTwin 0 (some w))
     isBay 0 = true ∧ (s.profile 0).releasePermitted = true ∧ s.Shaped ∧ (s.bay 0).state = .ready ∧ s.waits = [] ∧
     s.twin 0 = some w ∧ w.retiring = false ∧ s.twins.tail = List.replicate 5 none ∧ w.source ≠ w.target ∧
     s.loan 0 = some l ∧ l.state = .active ∧ l.placedBay = 0 ∧ l.move = none ∧ l.notice ≠ some .loanEnded ∧
     w.source = 0 ∧ w.state = .stale ∧ l.viaTwin = none) ∧
    (let l : Loan := { loan with kind := .view, placedBay := 1, viaTwin := some 0 }
     let w : Twin := twin
     let s : State := lent l (shelf.setTwin 0 (some w))
     isBay 1 = true ∧ (s.profile 1).releasePermitted = true ∧ s.Shaped ∧ (s.bay 1).state = .ready ∧ s.waits = [] ∧
     s.twin 0 = some w ∧ w.retiring = false ∧ s.twins.tail = List.replicate 5 none ∧ w.source ≠ w.target ∧
     s.loan 0 = some l ∧ l.state = .active ∧ l.placedBay = 1 ∧ l.move = none ∧ l.notice ≠ some .loanEnded ∧
     w.target = 1 ∧ l.viaTwin = some 0 ∧ w.state = .live ∧ (s.bay w.source).state = .ready ∧
     (∀ r ∈ s.records, r.loan.slot ≠ 0)) ∧
    (let l : Loan := { loan with kind := .view, placedBay := 1, viaTwin := some 0, commands := 1 }
     let w : Twin := { twin with state := .stale }
     let s : State := lent l ((runs { cmd with state := .inService, held := 2 } (shelf.setTwin 0 (some w))).modBay 1 fun x => { x with service := some (.command ref7), op := some (.readBlock 10), opNumber := 5, opLimit := 200 })
     isBay 1 = true ∧ (s.profile 1).releasePermitted = true ∧ s.Shaped ∧ (s.bay 1).state = .ready ∧ s.waits = [] ∧
     s.twin 0 = some w ∧ w.retiring = false ∧ s.twins.tail = List.replicate 5 none ∧ w.source ≠ w.target ∧
     s.loan 0 = some l ∧ l.state = .active ∧ l.placedBay = 1 ∧ l.move = none ∧ l.notice ≠ some .loanEnded ∧
     w.target = 1 ∧ l.viaTwin = some 0 ∧ w.state = .stale ∧ (s.bay w.source).state = .ready ∧ s.workOnBay 0 = true) ∧
    (let l : Loan := { loan with kind := .view, placedBay := 1, viaTwin := some 0 }
     let w : Twin := twin
     let s : State := lent l (bayIn 0 .draining (shelf.setTwin 0 (some w)))
     isBay 1 = true ∧ (s.profile 1).releasePermitted = true ∧ s.Shaped ∧ (s.bay 1).state = .ready ∧ s.waits = [] ∧
     s.twin 0 = some w ∧ w.retiring = false ∧ s.twins.tail = List.replicate 5 none ∧ w.source ≠ w.target ∧
     s.loan 0 = some l ∧ l.state = .active ∧ l.placedBay = 1 ∧ l.move = none ∧ l.notice ≠ some .loanEnded ∧
     w.target = 1 ∧ l.viaTwin = some 0 ∧ w.state = .live ∧ (s.bay w.source).state ≠ .ready) := by
  simp only [shaped_iff, quiet_iff]
  refine ⟨?_, ?_, ?_, ?_, ?_, ?_, ?_, ?_, ?_, ?_, ?_⟩ <;> decide +kernel

theorem witness_ReleaseBayDrains :
    (let f : Frame := fr kindReleaseBay 1 []
     let s : State := asks 0 f shelf
     s.CanTake 0 kindReleaseBay 1 f ∧ f.tag ≠ 0 ∧ f.body.length < 1) ∧
    (let f : Frame := fr kindReleaseBay 1 [24]
     let s : State := asks 0 f shelf
     s.CanTake 0 kindReleaseBay 1 f ∧ f.tag ≠ 0 ∧ 1 ≤ f.body.length ∧ 24 ≤ field f.body 0 1) ∧
    (let f : Frame := fr kindReleaseBay 1 [23]
     let s : State := asks 0 f shelf
     s.CanTake 0 kindReleaseBay 1 f ∧ f.tag ≠ 0 ∧ 1 ≤ f.body.length ∧ field f.body 0 1 < 24 ∧
     (s.bay (field f.body 0 1)).state = .empty) ∧
    (let f : Frame := fr kindReleaseBay 1 [0]
     let r : Command := { cmd with state := .inService, held := 2 }
     let s : State := asks 0 f (serves r (.readBlock 10) shelf)
     s.CanTake 0 kindReleaseBay 1 f ∧ f.tag ≠ 0 ∧ 1 ≤ f.body.length ∧ field f.body 0 1 < 24 ∧ s.Shaped ∧
     (s.bay (field f.body 0 1)).state = .ready) ∧
    (let f : Frame := fr kindReleaseBay 1 [2]
     let s : State := asks 0 f { waits { waiter with bay := 2 } (bayIn 2 .spinWait shelf) with spinQueue := [2] }
     s.CanTake 0 kindReleaseBay 1 f ∧ f.tag ≠ 0 ∧ 1 ≤ f.body.length ∧ field f.body 0 1 < 24 ∧ s.Shaped ∧
     (s.bay (field f.body 0 1)).state = .spinWait ∧ s.quiet ∧ ∃ e ∈ s.waits, e.bay = 2 ∧ isNode e.node = true ∧
     (s.link e.node).presence = true ∧ s.waitCount e.node ≤ (s.link e.node).reserved) ∧
    (let f : Frame := fr kindReleaseBay 1 [2]
     let s : State := asks 0 f (waits { waiter with bay := 2 } ((bayIn 2 .spinning shelf).modBay 2 fun x => { x with op := some .spinUp, opNumber := 5, opLimit := 200, opTimer := 0, weak := [3], cursor := 3 }))
     s.CanTake 0 kindReleaseBay 1 f ∧ f.tag ≠ 0 ∧ 1 ≤ f.body.length ∧ field f.body 0 1 < 24 ∧ s.Shaped ∧
     (s.bay (field f.body 0 1)).state = .spinning ∧ s.quiet ∧ ∃ e ∈ s.waits, e.bay = 2 ∧ isNode e.node = true ∧
     (s.link e.node).presence = true ∧ s.waitCount e.node ≤ (s.link e.node).reserved) ∧
    (let f : Frame := fr kindReleaseBay 1 [0]
     let s : State := asks 0 f (waits waiter (lent loan shelf))
     s.CanTake 0 kindReleaseBay 1 f ∧ f.tag ≠ 0 ∧ 1 ≤ f.body.length ∧ field f.body 0 1 < 24 ∧ s.Shaped ∧
     (s.bay (field f.body 0 1)).state = .ready ∧ s.quiet ∧ ∃ e ∈ s.waits, e.bay = 0 ∧ isNode e.node = true ∧
     (s.link e.node).presence = true ∧ s.waitCount e.node ≤ (s.link e.node).reserved) ∧
    (let f : Frame := fr kindReleaseBay 1 [0]
     let l : Loan := { loan with kind := .view }
     let w : Twin := twin
     let s : State := asks 0 f (lent l (shelf.setTwin 0 (some w)))
     s.CanTake 0 kindReleaseBay 1 f ∧ f.tag ≠ 0 ∧ 1 ≤ f.body.length ∧ field f.body 0 1 = 0 ∧ s.Shaped ∧
     (s.bay 0).state = .ready ∧ s.waits = [] ∧ s.twin 0 = some w ∧ w.retiring = false ∧
     s.twins.tail = List.replicate 5 none ∧ w.source ≠ w.target ∧ s.loan 0 = some l ∧ l.state = .active ∧
     l.placedBay = 0 ∧ l.move = none ∧ l.notice ≠ some .loanEnded ∧ w.source = 0 ∧ w.state = .live ∧
     (s.bay w.target).state = .ready ∧ l.kind = .view ∧ l.viaTwin = none ∧ l.range = some ⟨0, 49⟩ ∧ w.first ≤ 0 ∧
     49 ≤ w.last ∧ (∀ r ∈ s.records, r.loan.slot ≠ 0)) ∧
    (let f : Frame := fr kindReleaseBay 1 [0]
     let l : Loan := { loan with kind := .view, commands := 1 }
     let w : Twin := twin
     let s : State := asks 0 f (lent l (serves { cmd with state := .inService, held := 2 } (.readBlock 10) (shelf.setTwin 0 (some w))))
     s.CanTake 0 kindReleaseBay 1 f ∧ f.tag ≠ 0 ∧ 1 ≤ f.body.length ∧ field f.body 0 1 = 0 ∧ s.Shaped ∧
     (s.bay 0).state = .ready ∧ s.waits = [] ∧ s.twin 0 = some w ∧ w.retiring = false ∧
     s.twins.tail = List.replicate 5 none ∧ w.source ≠ w.target ∧ s.loan 0 = some l ∧ l.state = .active ∧
     l.placedBay = 0 ∧ l.move = none ∧ l.notice ≠ some .loanEnded ∧ w.source = 0 ∧ w.state = .live ∧
     (s.bay w.target).state = .ready ∧ l.kind = .view ∧ l.viaTwin = none ∧ l.range = some ⟨0, 49⟩ ∧ w.first ≤ 0 ∧
     49 ≤ w.last ∧ s.workOnBay 0 = true) ∧
    (let f : Frame := fr kindReleaseBay 1 [0]
     let l : Loan := { loan with kind := .view }
     let w : Twin := { twin with state := .stale }
     let s : State := asks 0 f (lent l (shelf.setTwin 0 (some w)))
     s.CanTake 0 kindReleaseBay 1 f ∧ f.tag ≠ 0 ∧ 1 ≤ f.body.length ∧ field f.body 0 1 = 0 ∧ s.Shaped ∧
     (s.bay 0).state = .ready ∧ s.waits = [] ∧ s.twin 0 = some w ∧ w.retiring = false ∧
     s.twins.tail = List.replicate 5 none ∧ w.source ≠ w.target ∧ s.loan 0 = some l ∧ l.state = .active ∧
     l.placedBay = 0 ∧ l.move = none ∧ l.notice ≠ some .loanEnded ∧ w.source = 0 ∧ w.state = .stale ∧
     l.viaTwin = none) ∧
    (let f : Frame := fr kindReleaseBay 1 [1]
     let l : Loan := { loan with kind := .view, placedBay := 1, viaTwin := some 0 }
     let w : Twin := twin
     let s : State := asks 0 f (lent l (shelf.setTwin 0 (some w)))
     s.CanTake 0 kindReleaseBay 1 f ∧ f.tag ≠ 0 ∧ 1 ≤ f.body.length ∧ field f.body 0 1 = 1 ∧ s.Shaped ∧
     (s.bay 1).state = .ready ∧ s.waits = [] ∧ s.twin 0 = some w ∧ w.retiring = false ∧
     s.twins.tail = List.replicate 5 none ∧ w.source ≠ w.target ∧ s.loan 0 = some l ∧ l.state = .active ∧
     l.placedBay = 1 ∧ l.move = none ∧ l.notice ≠ some .loanEnded ∧ w.target = 1 ∧ l.viaTwin = some 0 ∧
     w.state = .live ∧ (s.bay w.source).state = .ready ∧ (∀ r ∈ s.records, r.loan.slot ≠ 0)) ∧
    (let f : Frame := fr kindReleaseBay 1 [1]
     let l : Loan := { loan with kind := .view, placedBay := 1, viaTwin := some 0, commands := 1 }
     let w : Twin := { twin with state := .stale }
     let s : State := asks 0 f (lent l ((runs { cmd with state := .inService, held := 2 } (shelf.setTwin 0 (some w))).modBay 1 fun x => { x with service := some (.command ref7), op := some (.readBlock 10), opNumber := 5, opLimit := 200 }))
     s.CanTake 0 kindReleaseBay 1 f ∧ f.tag ≠ 0 ∧ 1 ≤ f.body.length ∧ field f.body 0 1 = 1 ∧ s.Shaped ∧
     (s.bay 1).state = .ready ∧ s.waits = [] ∧ s.twin 0 = some w ∧ w.retiring = false ∧
     s.twins.tail = List.replicate 5 none ∧ w.source ≠ w.target ∧ s.loan 0 = some l ∧ l.state = .active ∧
     l.placedBay = 1 ∧ l.move = none ∧ l.notice ≠ some .loanEnded ∧ w.target = 1 ∧ l.viaTwin = some 0 ∧
     w.state = .stale ∧ (s.bay w.source).state = .ready ∧ s.workOnBay 0 = true) ∧
    (let f : Frame := fr kindReleaseBay 1 [1]
     let l : Loan := { loan with kind := .view, placedBay := 1, viaTwin := some 0 }
     let w : Twin := twin
     let s : State := asks 0 f (lent l (bayIn 0 .draining (shelf.setTwin 0 (some w))))
     s.CanTake 0 kindReleaseBay 1 f ∧ f.tag ≠ 0 ∧ 1 ≤ f.body.length ∧ field f.body 0 1 = 1 ∧ s.Shaped ∧
     (s.bay 1).state = .ready ∧ s.waits = [] ∧ s.twin 0 = some w ∧ w.retiring = false ∧
     s.twins.tail = List.replicate 5 none ∧ w.source ≠ w.target ∧ s.loan 0 = some l ∧ l.state = .active ∧
     l.placedBay = 1 ∧ l.move = none ∧ l.notice ≠ some .loanEnded ∧ w.target = 1 ∧ l.viaTwin = some 0 ∧
     w.state = .live ∧ (s.bay w.source).state ≠ .ready) := by
  simp only [canTake_iff, shaped_iff, quiet_iff]
  refine ⟨?_, ?_, ?_, ?_, ?_, ?_, ?_, ?_, ?_, ?_, ?_, ?_, ?_⟩ <;> decide +kernel

theorem witness_RestoreBayActsByState :
    (let f : Frame := fr kindRestoreBay 1 []
     let s : State := asks 0 f shelf
     s.CanTake 0 kindRestoreBay 1 f ∧ f.tag ≠ 0 ∧ f.body.length < 1) ∧
    (let f : Frame := fr kindRestoreBay 1 [24]
     let s : State := asks 0 f shelf
     s.CanTake 0 kindRestoreBay 1 f ∧ f.tag ≠ 0 ∧ 1 ≤ f.body.length ∧ 24 ≤ field f.body 0 1) ∧
    (let f : Frame := fr kindRestoreBay 1 [23]
     let s : State := asks 0 f (bayIn 23 .faulted shelf)
     s.CanTake 0 kindRestoreBay 1 f ∧ f.tag ≠ 0 ∧ 1 ≤ f.body.length ∧ field f.body 0 1 < 24 ∧
     (s.bay (field f.body 0 1)).state = .faulted) ∧
    (let f : Frame := fr kindRestoreBay 1 [2]
     let s : State := asks 0 f (bayIn 2 .empty shelf)
     s.CanTake 0 kindRestoreBay 1 f ∧ f.tag ≠ 0 ∧ 1 ≤ f.body.length ∧ field f.body 0 1 < 24 ∧
     (s.bay (field f.body 0 1)).state = .empty ∧ (s.bay (field f.body 0 1)).presence = true) ∧
    (let f : Frame := fr kindRestoreBay 1 [2]
     let s : State := asks 0 f shelf
     s.CanTake 0 kindRestoreBay 1 f ∧ f.tag ≠ 0 ∧ 1 ≤ f.body.length ∧ field f.body 0 1 < 24 ∧
     (s.bay (field f.body 0 1)).state = .empty ∧ (s.bay (field f.body 0 1)).presence = false) ∧
    (let f : Frame := fr kindRestoreBay 1 [0]
     let s : State := asks 0 f shelf
     s.CanTake 0 kindRestoreBay 1 f ∧ f.tag ≠ 0 ∧ 1 ≤ f.body.length ∧ field f.body 0 1 < 24 ∧
     (s.bay (field f.body 0 1)).state = .ready) := by
  simp only [canTake_iff]
  refine ⟨?_, ?_, ?_, ?_, ?_, ?_⟩ <;> decide +kernel

theorem witness_DrainStopsAndReleases :
    (let s : State := bayIn 0 .draining shelf
     isBay 0 = true ∧ (s.bay 0).state = .draining ∧ (∀ k l, s.loan k = some l → ¬(l.state = .active ∧
     l.placedBay = 0)) ∧ (s.bay 0).service = none ∧ (s.bay 0).chosen = none) ∧
    (let s : State := lent loan (bayIn 0 .draining shelf)
     isBay 0 = true ∧ (s.bay 0).state = .draining ∧ s.loan 0 = some loan ∧ loan.state = .active ∧ loan.placedBay = 0) ∧
    (let s : State := (bayIn 0 .stopping shelf).modBay 0 fun x => { x with op := some .spinDown, opNumber := 5, opLimit := 10, opTimer := 10 }
     isBay 0 = true ∧ (s.bay 0).op = some .spinDown ∧ (s.bay 0).opLimit ≤ (s.bay 0).opTimer) ∧
    (let s : State := (bayIn 0 .stopping shelf).modBay 0 fun x => { x with op := some .spinDown, opNumber := 5, opLimit := 10, opTimer := 10 }
     isBay 0 = true ∧ (s.bay 0).op = some .spinDown ∧ (s.bay 0).opLimit ≤ (s.bay 0).opTimer) := by
  simp only [forall_loan]
  refine ⟨?_, ?_, ?_, ?_⟩ <;> decide +kernel

theorem witness_CopyStartsOrRefused :
    (let f : Frame := fr kindCopy 1 [0, 1, 0, 0, 0, 0, 0, 0, 0]
     let s : State := asks 0 f shelf
     s.CanTake 0 kindCopy 1 f ∧ f.tag ≠ 0 ∧ f.body.length < 10) ∧
    (let f : Frame := fr kindCopy 1 [0, 1, 0, 0, 0, 0, 0, 0, 0, 100]
     let s : State := asks 0 f shelf
     s.CanTake 0 kindCopy 1 f ∧ f.tag ≠ 0 ∧ 10 ≤ f.body.length ∧ 0 = field f.body 0 1 ∧ 1 = field f.body 1 1 ∧
     0 = field f.body 2 4 ∧ 100 = field f.body 6 4 ∧ s.copyRefusal 0 1 0 100 = some .outside) ∧
    (let f : Frame := fr kindCopy 1 [0, 1, 0, 0, 0, 0, 0, 0, 0, 99]
     let s : State := asks 0 f (waits { waiter with bay := 1 } shelf)
     s.CanTake 0 kindCopy 1 f ∧ f.tag ≠ 0 ∧ 10 ≤ f.body.length ∧ 0 = field f.body 0 1 ∧ 1 = field f.body 1 1 ∧
     0 = field f.body 2 4 ∧ 99 = field f.body 6 4 ∧ s.copyRefusal 0 1 0 99 = none ∧ 0 < s.channels.length ∧
     (s.channel 0).busy = false ∧ 0 < s.twins.length ∧ s.twin 0 = none ∧ s.quiet ∧ ∃ e ∈ s.waits, e.bay = 1 ∧
     isNode e.node = true ∧ (s.link e.node).presence = true ∧ s.waitCount e.node ≤ (s.link e.node).reserved) ∧
    (let f : Frame := fr kindCopy 1 [24, 24, 0, 0, 0, 1, 0, 0, 0, 0]
     let s : State := asks 0 f shelf
     s.CanTake 0 kindCopy 1 f ∧ f.tag ≠ 0 ∧ 10 ≤ f.body.length ∧ 24 ≤ field f.body 0 1) ∧
    (let f : Frame := fr kindCopy 1 [23, 24, 0, 0, 0, 1, 0, 0, 0, 0]
     let s : State := asks 0 f shelf
     s.CanTake 0 kindCopy 1 f ∧ f.tag ≠ 0 ∧ 10 ≤ f.body.length ∧ field f.body 0 1 < 24 ∧ 24 ≤ field f.body 1 1) ∧
    (let f : Frame := fr kindCopy 1 [23, 23, 0, 0, 0, 1, 0, 0, 0, 0]
     let s : State := asks 0 f shelf
     s.CanTake 0 kindCopy 1 f ∧ f.tag ≠ 0 ∧ 10 ≤ f.body.length ∧ field f.body 0 1 < 24 ∧
     field f.body 1 1 = field f.body 0 1) ∧
    (let f : Frame := fr kindCopy 1 [0, 23, 0, 0, 0, 1, 0, 0, 0, 0]
     let s : State := asks 0 f shelf
     s.CanTake 0 kindCopy 1 f ∧ f.tag ≠ 0 ∧ 10 ≤ f.body.length ∧ field f.body 0 1 < 24 ∧ field f.body 1 1 < 24 ∧
     field f.body 1 1 ≠ field f.body 0 1 ∧ field f.body 6 4 < field f.body 2 4) := by
  simp only [canTake_iff, quiet_iff]
  refine ⟨?_, ?_, ?_, ?_, ?_, ?_, ?_⟩ <;> decide +kernel

theorem witness_HaltCopyAndCopyEnd :
    (let f : Frame := fr kindHaltCopy 1 [6]
     let s : State := asks 0 f shelf
     s.CanTake 0 kindHaltCopy 1 f ∧ f.tag ≠ 0 ∧ 1 ≤ f.body.length ∧ 6 ≤ field f.body 0 1) ∧
    (let f : Frame := fr kindHaltCopy 1 [5]
     let s : State := asks 0 f shelf
     s.CanTake 0 kindHaltCopy 1 f ∧ f.tag ≠ 0 ∧ 1 ≤ f.body.length ∧ field f.body 0 1 < 6 ∧
     s.twin (field f.body 0 1) = none) ∧
    (let f : Frame := fr kindHaltCopy 1 [0]
     let s : State := asks 0 f (shelf.setTwin 0 (some twin))
     s.CanTake 0 kindHaltCopy 1 f ∧ f.tag ≠ 0 ∧ 1 ≤ f.body.length ∧ field f.body 0 1 < 6 ∧
     s.twin (field f.body 0 1) = some twin ∧ twin.state ≠ .copying) ∧
    (let f : Frame := fr kindHaltCopy 1 [0]
     let w : Twin := { twin with state := .copying, channel := some 0, next := 0 }
     let s : State := asks 0 f ({ copying shelf with channels := [{ Channel.free with busy := true, phase := .reading, chunkCount := 2, held := 2, endStatus := some .aborted }, Channel.free] })
     s.CanTake 0 kindHaltCopy 1 f ∧ f.tag ≠ 0 ∧ 1 ≤ f.body.length ∧ field f.body 0 1 < 6 ∧
     s.twin (field f.body 0 1) = some w ∧ w.state = .copying ∧ w.channel = some 0 ∧ 0 < s.channels.length ∧
     (s.channel 0).endStatus ≠ none) ∧
    (let f : Frame := fr kindHaltCopy 1 [0]
     let w : Twin := { twin with state := .copying, channel := some 0, next := 0 }
     let s : State := asks 0 f ({ copying shelf with channels := [{ Channel.free with busy := true, phase := .reading, chunkCount := 2, held := 2 }, Channel.free] })
     s.CanTake 0 kindHaltCopy 1 f ∧ f.tag ≠ 0 ∧ 1 ≤ f.body.length ∧ field f.body 0 1 < 6 ∧
     s.twin (field f.body 0 1) = some w ∧ w.state = .copying ∧ w.channel = some 0 ∧ 0 < s.channels.length ∧
     (s.channel 0).endStatus = none ∧ (s.channel 0).phase = .reading) ∧
    (let s : State := { copying shelf with channels := [{ Channel.free with busy := true, held := 2, chunkCount := 2, endStatus := some .halted }, Channel.free] }
     s.Settled ∧ isChannel 0 = true ∧ (s.channel 0).busy = true ∧ (s.channel 0).endStatus = some .halted ∧
     (s.channel 0).phase = .none ∧ s.waits = []) ∧
    (let f : Frame := fr kindHaltCopy 1 [0]
     let w : Twin := { twin with state := .copying, channel := some 0, next := 0 }
     let s : State := asks 0 f ({ copying shelf with channels := [{ Channel.free with busy := true, phase := .none, chunkCount := 2, held := 2 }, Channel.free] })
     s.CanTake 0 kindHaltCopy 1 f ∧ f.tag ≠ 0 ∧ 1 ≤ f.body.length ∧ field f.body 0 1 < 6 ∧
     s.twin (field f.body 0 1) = some w ∧ w.state = .copying ∧ w.channel = some 0 ∧ 0 < s.channels.length ∧
     (s.channel 0).endStatus = none ∧ (s.channel 0).twin = field f.body 0 1 ∧ s.waits = [] ∧
     (s.channel 0).phase = .none) ∧
    (let f : Frame := fr kindHaltCopy 1 [0]
     let w : Twin := { twin with state := .copying, channel := some 0, next := 0 }
     let s : State := asks 0 f ((copying shelf).modBay 0 fun x => { x with ring := [{ who := .channel 0, cls := .bulk, credit := 3, visited := true, queued := [] }] })
     s.CanTake 0 kindHaltCopy 1 f ∧ f.tag ≠ 0 ∧ 1 ≤ f.body.length ∧ field f.body 0 1 < 6 ∧
     s.twin (field f.body 0 1) = some w ∧ w.state = .copying ∧ w.channel = some 0 ∧ 0 < s.channels.length ∧
     (s.channel 0).endStatus = none ∧ (s.channel 0).twin = field f.body 0 1 ∧ s.waits = [] ∧
     (s.channel 0).phase = .queued) ∧
    (let f : Frame := fr kindHaltCopy 1 [0]
     let w : Twin := { twin with state := .copying, channel := some 0, next := 0 }
     let s : State := asks 0 f (({ copying shelf with channels := [{ Channel.free with busy := true, phase := .pending, chunkCount := 2, held := 2, filled := [[], []] }, Channel.free] }).modBay 1 fun x => { x with chunkWrite := some 0 })
     s.CanTake 0 kindHaltCopy 1 f ∧ f.tag ≠ 0 ∧ 1 ≤ f.body.length ∧ field f.body 0 1 < 6 ∧
     s.twin (field f.body 0 1) = some w ∧ w.state = .copying ∧ w.channel = some 0 ∧ 0 < s.channels.length ∧
     (s.channel 0).endStatus = none ∧ (s.channel 0).twin = field f.body 0 1 ∧ s.waits = [] ∧
     (s.channel 0).phase = .pending) := by
  simp only [canTake_iff, State.Settled]
  refine ⟨?_, ?_, ?_, ?_, ?_, ?_, ?_, ?_, ?_⟩ <;> decide +kernel

theorem witness_DropTwinActsByState :
    (let f : Frame := fr kindDropTwin 1 [6]
     let s : State := asks 0 f shelf
     s.CanTake 0 kindDropTwin 1 f ∧ f.tag ≠ 0 ∧ 1 ≤ f.body.length ∧ 6 ≤ field f.body 0 1) ∧
    (let f : Frame := fr kindDropTwin 1 [5]
     let s : State := asks 0 f shelf
     s.CanTake 0 kindDropTwin 1 f ∧ f.tag ≠ 0 ∧ 1 ≤ f.body.length ∧ field f.body 0 1 < 6 ∧
     s.twin (field f.body 0 1) = none) ∧
    (let f : Frame := fr kindDropTwin 1 [0]
     let w : Twin := { twin with state := .stale, retiring := true }
     let s : State := asks 0 f (shelf.setTwin 0 (some w))
     s.CanTake 0 kindDropTwin 1 f ∧ f.tag ≠ 0 ∧ 1 ≤ f.body.length ∧ field f.body 0 1 < 6 ∧
     s.twin (field f.body 0 1) = some w ∧ w.retiring = true) ∧
    (let f : Frame := fr kindDropTwin 1 [0]
     let w : Twin := { twin with state := .orphan }
     let s : State := asks 0 f (lent loan (shelf.setTwin 0 (some w)))
     s.CanTake 0 kindDropTwin 1 f ∧ f.tag ≠ 0 ∧ 1 ≤ f.body.length ∧ field f.body 0 1 < 6 ∧
     s.twin (field f.body 0 1) = some w ∧ w.retiring = false ∧ w.state = .orphan ∧ s.waits = [] ∧
     (∀ k l, s.loan k = some l → l.viaTwin ≠ some 0 ∧ ∀ m ∈ l.move, m.via ≠ some 0)) ∧
    (let f : Frame := fr kindDropTwin 1 [0]
     let l : Loan := { loan with kind := .view, placedBay := 1, viaTwin := some 0, state := .ending, endReason := some .reclaimed, commands := 1 }
     let s : State := asks 0 f (lent l (shelf.setTwin 0 (some twin)))
     s.CanTake 0 kindDropTwin 1 f ∧ f.tag ≠ 0 ∧ 1 ≤ f.body.length ∧ field f.body 0 1 < 6 ∧
     s.twin (field f.body 0 1) = some twin ∧ twin.retiring = false ∧ twin.state = .live ∧ s.waits = [] ∧
     s.loan 0 = some l ∧ l.viaTwin = some 0 ∧ (∀ k l, s.loan k = some l → l.viaTwin = some 0 → l.state ≠ .active)) ∧
    (let f : Frame := fr kindDropTwin 1 [0]
     let w : Twin := { twin with state := .copying, channel := some 0, next := 0 }
     let s : State := asks 0 f ({ copying shelf with channels := [{ Channel.free with busy := true, phase := .reading, chunkCount := 2, held := 2, endStatus := some .aborted }, Channel.free] })
     s.CanTake 0 kindDropTwin 1 f ∧ f.tag ≠ 0 ∧ 1 ≤ f.body.length ∧ field f.body 0 1 < 6 ∧
     s.twin (field f.body 0 1) = some w ∧ w.retiring = false ∧ w.state = .copying ∧ w.channel = some 0 ∧
     0 < s.channels.length ∧ (s.channel 0).endStatus ≠ none) ∧
    (let f : Frame := fr kindDropTwin 1 [0]
     let w : Twin := { twin with state := .copying, channel := some 0, next := 0 }
     let s : State := asks 0 f ({ copying shelf with channels := [{ Channel.free with busy := true, phase := .writing, chunkCount := 2, held := 2 }, Channel.free] })
     s.CanTake 0 kindDropTwin 1 f ∧ f.tag ≠ 0 ∧ 1 ≤ f.body.length ∧ field f.body 0 1 < 6 ∧
     s.twin (field f.body 0 1) = some w ∧ w.retiring = false ∧ w.state = .copying ∧ w.channel = some 0 ∧
     0 < s.channels.length ∧ (s.channel 0).endStatus = none ∧ (s.channel 0).phase = .writing) ∧
    (let f : Frame := fr kindDropTwin 1 [0]
     let w : Twin := { twin with state := .copying, channel := some 0, next := 0 }
     let s : State := asks 0 f ({ copying shelf with channels := [{ Channel.free with busy := true, phase := .none, chunkCount := 2, held := 2 }, Channel.free] })
     s.CanTake 0 kindDropTwin 1 f ∧ f.tag ≠ 0 ∧ 1 ≤ f.body.length ∧ field f.body 0 1 < 6 ∧
     s.twin (field f.body 0 1) = some w ∧ w.retiring = false ∧ w.state = .copying ∧ w.channel = some 0 ∧
     0 < s.channels.length ∧ (s.channel 0).endStatus = none ∧ (s.channel 0).twin = field f.body 0 1 ∧ s.waits = [] ∧
     (s.channel 0).phase = .none) ∧
    (let f : Frame := fr kindDropTwin 1 [0]
     let w : Twin := { twin with state := .copying, channel := some 0, next := 0 }
     let s : State := asks 0 f ((copying shelf).modBay 0 fun x => { x with ring := [{ who := .channel 0, cls := .bulk, credit := 3, visited := true, queued := [] }] })
     s.CanTake 0 kindDropTwin 1 f ∧ f.tag ≠ 0 ∧ 1 ≤ f.body.length ∧ field f.body 0 1 < 6 ∧
     s.twin (field f.body 0 1) = some w ∧ w.retiring = false ∧ w.state = .copying ∧ w.channel = some 0 ∧
     0 < s.channels.length ∧ (s.channel 0).endStatus = none ∧ (s.channel 0).twin = field f.body 0 1 ∧ s.waits = [] ∧
     (s.channel 0).phase = .queued) ∧
    (let f : Frame := fr kindDropTwin 1 [0]
     let w : Twin := { twin with state := .copying, channel := some 0, next := 0 }
     let s : State := asks 0 f (({ copying shelf with channels := [{ Channel.free with busy := true, phase := .pending, chunkCount := 2, held := 2, filled := [[], []] }, Channel.free] }).modBay 1 fun x => { x with chunkWrite := some 0 })
     s.CanTake 0 kindDropTwin 1 f ∧ f.tag ≠ 0 ∧ 1 ≤ f.body.length ∧ field f.body 0 1 < 6 ∧
     s.twin (field f.body 0 1) = some w ∧ w.retiring = false ∧ w.state = .copying ∧ w.channel = some 0 ∧
     0 < s.channels.length ∧ (s.channel 0).endStatus = none ∧ (s.channel 0).twin = field f.body 0 1 ∧ s.waits = [] ∧
     (s.channel 0).phase = .pending) ∧
    (let f : Frame := fr kindDropTwin 1 [0]
     let w : Twin := { twin with state := .orphan }
     let l : Loan := { loan with kind := .view, placedBay := 1, viaTwin := some 0 }
     let s : State := asks 0 f (lent l (shelf.setTwin 0 (some w)))
     s.CanTake 0 kindDropTwin 1 f ∧ f.tag ≠ 0 ∧ 1 ≤ f.body.length ∧ field f.body 0 1 < 6 ∧
     s.twin (field f.body 0 1) = some w ∧ w.retiring = false ∧ w.state = .orphan ∧ s.waits = [] ∧
     s.loans.length = Config.slots ∧ (∀ k l, s.loan k = some l → l.viaTwin = some 0 ∧
     l.idle < holdLimitOf l.holdBase (s.profile l.placedBay).holdMinimum 0)) ∧
    (let f : Frame := fr kindDropTwin 1 [0]
     let w : Twin := { twin with state := .orphan }
     let l : Loan := { loan with kind := .view, commands := 1, move := some { bay := 1, via := some 0, reason := .bayReleased } }
     let s : State := asks 0 f (lent l (serves { cmd with state := .inService, held := 2 } (.readBlock 10) (shelf.setTwin 0 (some w))))
     s.CanTake 0 kindDropTwin 1 f ∧ f.tag ≠ 0 ∧ 1 ≤ f.body.length ∧ field f.body 0 1 < 6 ∧
     s.twin (field f.body 0 1) = some w ∧ w.retiring = false ∧ w.state = .orphan ∧ s.waits = [] ∧
     s.loans.length = Config.slots ∧ (∀ k l, s.loan k = some l → l.viaTwin = none ∧
     l.move = some { bay := 1, via := some 0, reason := .bayReleased })) ∧
    (let f : Frame := fr kindDropTwin 1 [0]
     let w : Twin := { twin with state := .stale }
     let s : State := asks 0 f (lent loan (shelf.setTwin 0 (some w)))
     s.CanTake 0 kindDropTwin 1 f ∧ f.tag ≠ 0 ∧ 1 ≤ f.body.length ∧ field f.body 0 1 < 6 ∧
     s.twin (field f.body 0 1) = some w ∧ w.retiring = false ∧ w.state = .stale ∧ s.waits = [] ∧
     (∀ k l, s.loan k = some l → l.viaTwin ≠ some 0 ∧ ∀ m ∈ l.move, m.via ≠ some 0)) ∧
    (let f : Frame := fr kindDropTwin 1 [0]
     let w : Twin := twin
     let l : Loan := { loan with kind := .view, placedBay := 1, viaTwin := some 0 }
     let s : State := asks 0 f (lent l (shelf.setTwin 0 (some w)))
     s.CanTake 0 kindDropTwin 1 f ∧ f.tag ≠ 0 ∧ 1 ≤ f.body.length ∧ field f.body 0 1 < 6 ∧
     s.twin (field f.body 0 1) = some w ∧ w.retiring = false ∧ w.state = .live ∧ s.waits = [] ∧ s.Shaped ∧
     s.loan 0 = some l ∧ l.state = .active ∧ l.viaTwin = some (field f.body 0 1) ∧ l.notice ≠ some .loanEnded ∧
     (s.bay w.source).state = .ready ∧ (∀ r ∈ s.records, r.loan.slot ≠ 0)) ∧
    (let f : Frame := fr kindDropTwin 1 [0]
     let w : Twin := twin
     let l : Loan := { loan with kind := .view, placedBay := 1, viaTwin := some 0, commands := 1 }
     let s : State := asks 0 f (lent l ((runs { cmd with state := .inService, held := 2 } (shelf.setTwin 0 (some w))).modBay 1 fun x => { x with service := some (.command ref7), op := some (.readBlock 10), opNumber := 5, opLimit := 200 }))
     s.CanTake 0 kindDropTwin 1 f ∧ f.tag ≠ 0 ∧ 1 ≤ f.body.length ∧ field f.body 0 1 < 6 ∧
     s.twin (field f.body 0 1) = some w ∧ w.retiring = false ∧ w.state = .live ∧ s.waits = [] ∧ s.Shaped ∧
     s.loan 0 = some l ∧ l.state = .active ∧ l.viaTwin = some (field f.body 0 1) ∧ l.notice ≠ some .loanEnded ∧
     (s.bay w.source).state = .ready ∧ s.workOnBay 0 = true) ∧
    (let f : Frame := fr kindDropTwin 1 [0]
     let w : Twin := twin
     let l : Loan := { loan with kind := .view, placedBay := 1, viaTwin := some 0 }
     let s : State := asks 0 f (lent l (bayIn 0 .draining (shelf.setTwin 0 (some w))))
     s.CanTake 0 kindDropTwin 1 f ∧ f.tag ≠ 0 ∧ 1 ≤ f.body.length ∧ field f.body 0 1 < 6 ∧
     s.twin (field f.body 0 1) = some w ∧ w.retiring = false ∧ w.state = .live ∧ s.waits = [] ∧ s.Shaped ∧
     s.loan 0 = some l ∧ l.state = .active ∧ l.viaTwin = some (field f.body 0 1) ∧ l.notice ≠ some .loanEnded ∧
     (s.bay w.source).state ≠ .ready) := by
  simp only [canTake_iff, shaped_iff, forall_loan]
  refine ⟨?_, ?_, ?_, ?_, ?_, ?_, ?_, ?_, ?_, ?_, ?_, ?_, ?_, ?_, ?_, ?_⟩ <;> decide +kernel

theorem witness_HeldMoveCarriedOut :
    (let l : Loan := { loan with kind := .view, move := some { bay := 1, via := some 0, reason := .bayFault } }
     let s : State := lent l (full 1 (shelf.setTwin 0 (some { twin with state := .orphan })))
     s.Settled ∧ 0 < Config.slots ∧ s.loan 0 = some l ∧ l.state = .active ∧
     l.move = some { bay := 1, via := some 0, reason := .bayFault } ∧ s.workOnBay 0 = false ∧
     (s.bay 1).state = .ready ∧ l.viaTwin = none ∧ s.waits = [] ∧ (∀ x ∈ (s.bay l.placedBay).ring, x.who ≠ .loan 0) ∧
     (∀ j x, j < Config.slots → j ≠ 0 → s.loan j = some x → x.borrower = l.borrower → x.notice = none) ∧
     ¬ s.placeable l.borrower) ∧
    (let l : Loan := { loan with kind := .view, move := some { bay := 1, via := some 0, reason := .bayFault } }
     let s : State := lent l (shelf.setTwin 0 (some { twin with state := .orphan }))
     s.Settled ∧ 0 < Config.slots ∧ s.loan 0 = some l ∧ l.state = .active ∧
     l.move = some { bay := 1, via := some 0, reason := .bayFault } ∧ s.workOnBay 0 = false ∧
     (s.bay 1).state = .ready ∧ l.viaTwin = none ∧ s.waits = [] ∧ (∀ x ∈ (s.bay l.placedBay).ring, x.who ≠ .loan 0) ∧
     (∀ j x, j < Config.slots → j ≠ 0 → s.loan j = some x → x.borrower = l.borrower → x.notice = none) ∧
     s.placeable l.borrower) ∧
    (let l : Loan := { loan with kind := .view, commands := 1, move := some { bay := 1, via := some 0, reason := .bayFault } }
     let s : State := ((lent l (runs cmd (shelf.setTwin 0 (some { twin with state := .orphan })))).modBay 0 fun x => { x with ring := [{ member with credit := 5 }, { member with who := .loan 3, queued := [] }] })
     s.Settled ∧ 0 < Config.slots ∧ s.loan 0 = some l ∧ l.state = .active ∧
     l.move = some { bay := 1, via := some 0, reason := .bayFault } ∧ s.workOnBay 0 = false ∧
     (s.bay 1).state = .ready ∧ l.viaTwin = none ∧ s.waits = [] ∧
     (s.bay l.placedBay).ring.filter (fun y => y.who == .loan 0) = [{ member with credit := 5 }] ∧
     member.queued ≠ [] ∧ (∀ ref ∈ member.queued, ∃ r ∈ s.record ref, r.state = .queued) ∧ l.placedBay ≠ 1 ∧
     (∀ y ∈ (s.bay 1).ring, y.who ≠ .loan 0) ∧
     (∀ i < member.queued.length, ((s.bay 1).ring.map fun y => y.queued.length).sum + i + 1 ≠ (s.profile 1).hotThreshold) ∧
     (∀ j x, j < Config.slots → j ≠ 0 → s.loan j = some x → x.borrower = l.borrower → x.notice = none) ∧
     s.placeable l.borrower) ∧
    (let l : Loan := { loan with kind := .view, commands := 1, move := some { bay := 1, via := some 0, reason := .bayFault } }
     let s : State := full 1 ((lent l (runs cmd (shelf.setTwin 0 (some { twin with state := .orphan })))).modBay 0 fun x => { x with ring := [{ member with credit := 5 }, { member with who := .loan 3, queued := [] }] })
     s.Settled ∧ 0 < Config.slots ∧ s.loan 0 = some l ∧ l.state = .active ∧
     l.move = some { bay := 1, via := some 0, reason := .bayFault } ∧ s.workOnBay 0 = false ∧
     (s.bay 1).state = .ready ∧ l.viaTwin = none ∧ s.waits = [] ∧
     (s.bay l.placedBay).ring.filter (fun y => y.who == .loan 0) = [{ member with credit := 5 }] ∧
     member.queued ≠ [] ∧ (∀ ref ∈ member.queued, ∃ r ∈ s.record ref, r.state = .queued) ∧ l.placedBay ≠ 1 ∧
     (∀ y ∈ (s.bay 1).ring, y.who ≠ .loan 0) ∧
     (∀ i < member.queued.length, ((s.bay 1).ring.map fun y => y.queued.length).sum + i + 1 ≠ (s.profile 1).hotThreshold) ∧
     (∀ j x, j < Config.slots → j ≠ 0 → s.loan j = some x → x.borrower = l.borrower → x.notice = none) ∧
     ¬ s.placeable l.borrower) ∧
    (let l : Loan := { loan with kind := .view, move := some { bay := 1, via := some 0, reason := .bayFault } }
     let s : State := { lent l shelf with pending := [.heldMoveCarryOut 0] }
     s.MovesActive ∧ (step s matches .next _) = true ∧ s.loan 0 = some l ∧ l.move ≠ none) := by
  simp only [forall_loan₂, State.Settled, State.placeable, State.MovesActive, forall_loan]
  refine ⟨?_, ?_, ?_, ?_, ?_⟩ <;> decide +kernel

theorem witness_TickCounts :
    (let s : State := (shelf).modBay 0 fun x => { x with upkeepTimer := some { seconds := 9, ticks := 0, period := 9 } }
     isBay 0 = true ∧ (s.bay 0).upkeepTimer = some { seconds := 9, ticks := 0, period := 9 } ∧ 9 ≤ 9) ∧
    (let s : State := { shelf with bays := List.replicate 24 { ready with upkeepTimer := some { seconds := 1, ticks := 99, period := 1 } } }
     isBay 23 = true ∧ (s.bay 23).upkeepTimer = some { seconds := 1, ticks := 99, period := 1 } ∧ 1 ≤ 1) := by
  refine ⟨?_, ?_⟩ <;> decide +kernel

theorem witness_SupervisorFormChecked :
    (∀ kind ∈ List.range' kindSetBay 13, (asks 0 (fr kind 0 []) shelf).CanTake 0 kind 1 (fr kind 0 []) ∧
     (fr kind 0 []).tag = 0) ∧
    (∀ p ∈ [(kindSetBay, 26), (kindSetNode, 8), (kindSetShelf, 2), (kindReport, 2), (kindArm, 6), (kindHaltCopy, 1), (kindDropTwin, 1)], (asks 0 (fr p.1 1 (List.replicate (p.2 - 1) 1)) shelf).CanTake 0 p.1 1 (fr p.1 1 (List.replicate (p.2 - 1) 1)) ∧
     (fr p.1 1 (List.replicate (p.2 - 1) 1)).body.length < p.2) := by
  simp only [canTake_iff]
  refine ⟨?_, ?_⟩ <;> decide +kernel

theorem witness_BayAndNodeSet :
    (let f : Frame := fr kindSetBay 1 ([24, 1, 1] ++ List.replicate 23 0)
     let s : State := asks 0 f shelf
     s.CanTake 0 kindSetBay 1 f ∧ f.tag ≠ 0 ∧ 26 ≤ f.body.length ∧ 24 ≤ field f.body 0 1) ∧
    (let f : Frame := fr kindSetBay 1 ([23, 2, 1] ++ List.replicate 23 0)
     let s : State := asks 0 f shelf
     s.CanTake 0 kindSetBay 1 f ∧ f.tag ≠ 0 ∧ 26 ≤ f.body.length ∧ field f.body 0 1 < 24 ∧ 1 < field f.body 1 1) ∧
    (let f : Frame := fr kindSetBay 1 ([23, 1, 2] ++ List.replicate 23 0)
     let s : State := asks 0 f shelf
     s.CanTake 0 kindSetBay 1 f ∧ f.tag ≠ 0 ∧ 26 ≤ f.body.length ∧ field f.body 0 1 < 24 ∧ field f.body 1 1 ≤ 1 ∧
     1 < field f.body 2 1) ∧
    (let f : Frame := fr kindSetBay 1 ([0, 1, 1, 8, 14, 16, 0, 100, 0, 255] ++ List.replicate 8 0 ++ [14, 16, 0, 64, 0, 200, 7, 208])
     let s : State := asks 0 f (lent loan shelf)
     s.CanTake 0 kindSetBay 1 f ∧ f.tag ≠ 0 ∧ 26 ≤ f.body.length ∧ field f.body 0 1 < 24 ∧ field f.body 1 1 ≤ 1 ∧
     field f.body 2 1 ≤ 1 ∧ max 5 (min 600 (field f.body 6 2)) = (s.profile 0).holdMinimum) ∧
    (let f : Frame := fr kindSetBay 1 ([0, 1, 1, 8, 14, 16, 0, 5, 0, 255] ++ List.replicate 8 0 ++ [14, 16, 0, 64, 0, 200, 7, 208])
     let s : State := asks 0 f (lent { loan with idle := 400 } shelf)
     s.CanTake 0 kindSetBay 1 f ∧ f.tag ≠ 0 ∧ 26 ≤ f.body.length ∧ field f.body 0 1 < 24 ∧ field f.body 1 1 ≤ 1 ∧
     field f.body 2 1 ≤ 1 ∧ max 5 (min 600 (field f.body 6 2)) ≠ (s.profile 0).holdMinimum ∧
     s.loans.length = Config.slots ∧ (∀ k l, s.loan k = some l → l.state = .active ∧ s.pressure l = 0 ∧
     l.idle < (s.nodeEntry 1).holdBase ∧ l.holdBase = (s.nodeEntry 1).holdBase)) ∧
    (let f : Frame := fr kindSetNode 1 [0, 1, 1, 0, 0, 0, 255, 255]
     let s : State := asks 0 f shelf
     s.CanTake 0 kindSetNode 1 f ∧ f.tag ≠ 0 ∧ 8 ≤ f.body.length ∧ field f.body 0 1 = 0) ∧
    (let f : Frame := fr kindSetNode 1 [17, 1, 1, 0, 0, 0, 255, 255]
     let s : State := asks 0 f shelf
     s.CanTake 0 kindSetNode 1 f ∧ f.tag ≠ 0 ∧ 8 ≤ f.body.length ∧ 16 < field f.body 0 1) ∧
    (let f : Frame := fr kindSetNode 1 [16, 2, 1, 0, 0, 0, 255, 255]
     let s : State := asks 0 f shelf
     s.CanTake 0 kindSetNode 1 f ∧ f.tag ≠ 0 ∧ 8 ≤ f.body.length ∧ 1 ≤ field f.body 0 1 ∧ field f.body 0 1 ≤ 16 ∧
     1 < field f.body 1 1) ∧
    (let f : Frame := fr kindSetNode 1 [16, 0, 4, 0, 0, 0, 255, 255]
     let s : State := asks 0 f shelf
     s.CanTake 0 kindSetNode 1 f ∧ f.tag ≠ 0 ∧ 8 ≤ f.body.length ∧ 1 ≤ field f.body 0 1 ∧ field f.body 0 1 ≤ 16 ∧
     field f.body 1 1 ≤ 1 ∧ 3 < field f.body 2 1) ∧
    (let f : Frame := fr kindSetNode 1 [1, 1, 1, 0, 0, 0, 255, 255]
     let s : State := asks 0 f (lent loan shelf)
     s.CanTake 0 kindSetNode 1 f ∧ f.tag ≠ 0 ∧ 8 ≤ f.body.length ∧ 1 ≤ field f.body 0 1 ∧ field f.body 0 1 ≤ 16 ∧
     field f.body 1 1 ≤ 1 ∧ Cls.rush.code = field f.body 2 1) := by
  simp only [canTake_iff, forall_loan]
  refine ⟨?_, ?_, ?_, ?_, ?_, ?_, ?_, ?_, ?_, ?_⟩ <;> decide +kernel

theorem witness_ShelfSet :
    (let f : Frame := fr kindSetShelf 1 [0, 1]
     let s : State := asks 0 f shelf
     s.CanTake 0 kindSetShelf 1 f ∧ f.tag ≠ 0 ∧ 2 ≤ f.body.length ∧ field f.body 0 1 = 0) ∧
    (let f : Frame := fr kindSetShelf 1 [4, 1]
     let s : State := asks 0 f shelf
     s.CanTake 0 kindSetShelf 1 f ∧ f.tag ≠ 0 ∧ 2 ≤ f.body.length ∧ 3 < field f.body 0 1) ∧
    (let f : Frame := fr kindSetShelf 1 [1, 0]
     let s : State := asks 0 f (bayIn 3 .spinning (bayIn 2 .spinning shelf))
     s.CanTake 0 kindSetShelf 1 f ∧ f.tag ≠ 0 ∧ 2 ≤ f.body.length ∧ Level.openShelf.code = field f.body 0 1 ∧
     .openShelf = s.settings.level) ∧
    (let f : Frame := fr kindSetShelf 1 [3, 9]
     let s : State := asks 0 f (lent loan (waits waiter shelf))
     s.CanTake 0 kindSetShelf 1 f ∧ f.tag ≠ 0 ∧ 2 ≤ f.body.length ∧ Level.lockdown.code = field f.body 0 1 ∧
     .lockdown ≠ s.settings.level ∧ s.loans.length = Config.slots ∧ (∀ e ∈ s.waits, masks .lockdown e.cls = true) ∧
     (∀ k l, s.loan k = some l → l.idle < ({ s with waits := s.waits.map fun e => { e with masked := true } } : State).holdLimit l)) ∧
    (let f : Frame := fr kindSetShelf 1 [2, 4]
     let s : State := asks 0 f (lent loan (waits waiter shelf))
     s.CanTake 0 kindSetShelf 1 f ∧ f.tag ≠ 0 ∧ 2 ≤ f.body.length ∧ Level.crunch.code = field f.body 0 1 ∧
     .crunch ≠ s.settings.level) := by
  simp only [canTake_iff, forall_loan]
  refine ⟨?_, ?_, ?_, ?_, ?_⟩ <;> decide +kernel

theorem witness_ReportAnswered :
    (let f : Frame := fr kindReport 1 [1, 23]
     let s : State := asks 0 f { bayIn 23 .spinWait shelf with spinQueue := [22, 23] }
     s.CanTake 0 kindReport 1 f ∧ f.tag ≠ 0 ∧ 2 ≤ f.body.length ∧ field f.body 0 1 = 1 ∧ field f.body 1 1 < 24 ∧
     (s.bay 23).state = .spinWait ∧ s.spinQueue[1]? = some 23 ∧ 23 ∉ s.spinQueue.take 1 ∧ (s.bay 23).chosen = none) ∧
    (let f : Frame := fr kindReport 1 [1, 0]
     let r : Command := { cmd with state := .poolWait }
     let s : State := asks 0 f ((runs r shelf).modBay 0 fun x => { x with chosen := some (.command ref7), ring := [member] })
     s.CanTake 0 kindReport 1 f ∧ f.tag ≠ 0 ∧ 2 ≤ f.body.length ∧ field f.body 0 1 = 1 ∧ field f.body 1 1 < 24 ∧
     (s.bay 0).state ≠ .spinWait ∧ (s.bay 0).chosen = some (.command ref7) ∧ s.record ref7 = some r) ∧
    (let f : Frame := fr kindReport 1 [1, 0]
     let s : State := asks 0 f ((copying shelf).modBay 0 fun x => { x with chosen := some (.chunkRead 0) })
     s.CanTake 0 kindReport 1 f ∧ f.tag ≠ 0 ∧ 2 ≤ f.body.length ∧ field f.body 0 1 = 1 ∧ field f.body 1 1 < 24 ∧
     (s.bay 0).chosen = some (.chunkRead 0)) ∧
    (let f : Frame := fr kindReport 1 [2, 0]
     let s : State := asks 0 f (lent loan shelf)
     s.CanTake 0 kindReport 1 f ∧ f.tag ≠ 0 ∧ 2 ≤ f.body.length ∧ field f.body 0 1 = 2 ∧ field f.body 1 1 < 96) ∧
    (let f : Frame := fr kindReport 1 [3, 2]
     let s : State := asks 0 f { waits waiter shelf with poolWait := [{ who := .link 2, count := 9 }] }
     s.CanTake 0 kindReport 1 f ∧ f.tag ≠ 0 ∧ 2 ≤ f.body.length ∧ field f.body 0 1 = 3 ∧ 1 ≤ field f.body 1 1 ∧
     field f.body 1 1 ≤ 16 ∧ s.poolWait = [{ who := .link (field f.body 1 1), count := 9 }]) ∧
    (let f : Frame := fr kindReport 1 [3, 16]
     let s : State := asks 0 f { shelf with poolWait := [{ who := .link 2, count := 9 }] }
     s.CanTake 0 kindReport 1 f ∧ f.tag ≠ 0 ∧ 2 ≤ f.body.length ∧ field f.body 0 1 = 3 ∧ 1 ≤ field f.body 1 1 ∧
     field f.body 1 1 ≤ 16 ∧ ∀ w ∈ s.poolWait, w.who ≠ .link (field f.body 1 1)) ∧
    (let f : Frame := fr kindReport 1 [4, 0]
     let s : State := asks 0 f (runs { cmd with state := .gathering, held := 2 } shelf)
     s.CanTake 0 kindReport 1 f ∧ f.tag ≠ 0 ∧ 2 ≤ f.body.length ∧ field f.body 0 1 = 4) ∧
    (let f : Frame := fr kindReport 1 [5, 0]
     let s : State := asks 0 f (copying shelf)
     s.CanTake 0 kindReport 1 f ∧ f.tag ≠ 0 ∧ 2 ≤ f.body.length ∧ field f.body 0 1 = 5) ∧
    (let f : Frame := fr kindReport 1 [6, 0]
     let s : State := asks 0 f shelf
     s.CanTake 0 kindReport 1 f ∧ f.tag ≠ 0 ∧ 2 ≤ f.body.length ∧ field f.body 0 1 = 6) ∧
    (let f : Frame := fr kindReport 1 [0, 0]
     let s : State := asks 0 f shelf
     s.CanTake 0 kindReport 1 f ∧ f.tag ≠ 0 ∧ 2 ≤ f.body.length ∧ field f.body 0 1 = 0) ∧
    (let f : Frame := fr kindReport 1 [7, 0]
     let s : State := asks 0 f shelf
     s.CanTake 0 kindReport 1 f ∧ f.tag ≠ 0 ∧ 2 ≤ f.body.length ∧ 6 < field f.body 0 1) ∧
    (let f : Frame := fr kindReport 1 [1, 24]
     let s : State := asks 0 f shelf
     s.CanTake 0 kindReport 1 f ∧ f.tag ≠ 0 ∧ 2 ≤ f.body.length ∧ field f.body 0 1 = 1 ∧ 24 ≤ field f.body 1 1) ∧
    (let f : Frame := fr kindReport 1 [2, 96]
     let s : State := asks 0 f shelf
     s.CanTake 0 kindReport 1 f ∧ f.tag ≠ 0 ∧ 2 ≤ f.body.length ∧ field f.body 0 1 = 2 ∧ 96 ≤ field f.body 1 1) ∧
    (let f : Frame := fr kindReport 1 [3, 0]
     let s : State := asks 0 f shelf
     s.CanTake 0 kindReport 1 f ∧ f.tag ≠ 0 ∧ 2 ≤ f.body.length ∧ field f.body 0 1 = 3 ∧ field f.body 1 1 = 0) ∧
    (let f : Frame := fr kindReport 1 [3, 17]
     let s : State := asks 0 f shelf
     s.CanTake 0 kindReport 1 f ∧ f.tag ≠ 0 ∧ 2 ≤ f.body.length ∧ field f.body 0 1 = 3 ∧ 16 < field f.body 1 1) := by
  simp only [canTake_iff]
  refine ⟨?_, ?_, ?_, ?_, ?_, ?_, ?_, ?_, ?_, ?_, ?_, ?_, ?_, ?_, ?_⟩ <;> decide +kernel

theorem witness_ReadCauseClearsFlags :
    (let f : Frame := fr kindReadCause 1 []
     let s : State := asks 0 f shelf
     s.CanTake 0 kindReadCause 1 f ∧ f.tag ≠ 0 ∧ s.cause.power = true) ∧
    (let f : Frame := fr kindReport 1 [6, 0]
     let s : State := asks 0 f shelf
     s.CanTake 0 kindReport 1 f ∧ f.tag ≠ 0 ∧ 2 ≤ f.body.length ∧ field f.body 0 1 = 6) := by
  simp only [canTake_iff]
  refine ⟨?_, ?_⟩ <;> decide +kernel

theorem witness_ArmAndNotices :
    (let f : Frame := fr kindArm 1 [0, 1, 0, 0, 1, 0]
     let s : State := asks 0 f shelf
     s.CanTake 0 kindArm 1 f ∧ f.tag ≠ 0 ∧ 6 ≤ f.body.length ∧ ∀ i < 6, field f.body i 1 ≤ 1) ∧
    (let f : Frame := fr kindArm 1 [2, 0, 9, 0, 0, 0]
     let s : State := asks 0 f shelf
     s.CanTake 0 kindArm 1 f ∧ f.tag ≠ 0 ∧ 6 ≤ f.body.length ∧ 0 < 6 ∧ 1 < field f.body 0 1 ∧
     ∀ j < 0, field f.body j 1 ≤ 1) ∧
    (let f : Frame := fr kindArm 1 [0, 1, 0, 0, 1, 2]
     let s : State := asks 0 f shelf
     s.CanTake 0 kindArm 1 f ∧ f.tag ≠ 0 ∧ 6 ≤ f.body.length ∧ 5 < 6 ∧ 1 < field f.body 5 1 ∧
     ∀ j < 5, field f.body j 1 ≤ 1) ∧
    (let s : State := { State.reset with links := shelf.links }
     s.hasRoom 0 = true ∧ (s.notices.get .cause).pending = true ∧ (s.notices.get .cause).armed = true ∧
     NoticeKind.cause.code = 1) ∧
    (let s : State := { State.reset with links := shelf.links, notices := { State.reset.notices with cause := { State.reset.notices.cause with armed := false }, weak := State.reset.notices.cause } }
     s.hasRoom 0 = true ∧ (s.notices.get .weak).pending = true ∧ (s.notices.get .weak).armed = true ∧
     (s.notices.get .cause).armed = false ∧
     (∀ k ∈ [NoticeKind.bay, .copy, .worn], (s.notices.get k).pending = false)) ∧
    (let s : State := full 0 { State.reset with links := shelf.links }
     s.hasRoom 0 = false) ∧
    (let s : State := shelf
     ∀ k ∈ [NoticeKind.cause, .bay, .copy, .worn, .weak], (s.notices.get k).pending = false) := by
  simp only [canTake_iff]
  refine ⟨?_, ?_, ?_, ?_, ?_, ?_, ?_⟩ <;> decide +kernel

theorem witness_SaveStores :
    (let f : Frame := fr kindSave 1 []
     let s : State := asks 0 f shelf
     s.CanTake 0 kindSave 1 f ∧ f.tag ≠ 0 ∧ s.saving = none) ∧
    (let f : Frame := fr kindSave 1 []
     let s : State := asks 0 f { shelf with saving := some { image := [0#8], tag := some 3, check := 9, ticks := 0 } }
     s.CanTake 0 kindSave 1 f ∧ f.tag ≠ 0 ∧ s.saving ≠ none) ∧
    (let s : State := { shelf.modLink 0 (fun x => { x with reserved := 1 }) with saving := some { image := [0#8], tag := some 3, check := 9, ticks := 0 } }
     s.saving = some { image := [0#8], tag := some 3, check := 9, ticks := 0 } ∧ (s.link 0).presence = true ∧
     0 < (s.link 0).reserved) ∧
    (let s : State := { shelf with saving := some { image := [0#8], tag := none, check := 9, ticks := 0 } }
     s.saving = some { image := [0#8], tag := none, check := 9, ticks := 0 }) := by
  simp only [canTake_iff]
  refine ⟨?_, ?_, ?_, ?_⟩ <;> decide +kernel

theorem witness_SettingsImageRoundTrips :
    (Settings.default.storable) := by
  simp only [Settings.storable, Profile.storable, NodeEntry.storable]
  decide +kernel

theorem witness_PowerOnStarts :
    (let s : State := runs cmd (bayIn 2 .spinWait shelf)
     s.Shaped) := by
  simp only [shaped_iff]
  decide +kernel

theorem witness_WarmResetsKeepDisks :
    (let s : State := runs cmd (bayIn 2 .spinWait shelf)
     s.Shaped) ∧
    (let f : Frame := fr kindResetShelf 0 []
     let s : State := asks 0 f shelf
     s.Shaped ∧ s.CanTake 0 kindResetShelf 0 f ∧ f.body.head? ≠ some 1) ∧
    (let f : Frame := fr kindResetShelf 0 [1]
     let s : State := asks 0 f shelf
     s.Shaped ∧ s.CanTake 0 kindResetShelf 0 f ∧ f.body.head? = some 1) := by
  simp only [canTake_iff, shaped_iff]
  refine ⟨?_, ?_, ?_⟩ <;> decide +kernel

/-- A state that meets the invariants, and whose next step answers a next state. -/
def busy : State :=
  { serves { cmd with state := .inService, held := 2 } (.readBlock 10) shelf with pending := [.tick] }

theorem witness_PoolBalanceKept : busy.PoolBalanced ∧ ∃ t, step busy = .next t :=
  ⟨by simp only [State.PoolBalanced, Channel.emptyWhenFree]; decide +kernel, _, rfl⟩

theorem witness_BoundsKept : busy.Shaped ∧ busy.WaitsOrdered ∧ busy.Settled ∧ busy.BaysBounded ∧ busy.SpinBounded ∧
    busy.LinksBounded ∧ ∃ t, step busy = .next t := by
  simp only [shaped_iff, State.WaitsOrdered, State.Settled, State.BaysBounded, Bay.bounded, State.SpinBounded,
    State.LinksBounded, Link.bounded]
  exact ⟨by decide +kernel, by decide +kernel, by decide +kernel, by decide +kernel, by decide +kernel, by decide +kernel,
    _, rfl⟩

/-! ### The worked sequence of 06, Section 6.10: bay 12, with span exponent 10 and seek cap 8 -/

def read610 (tag slot first count : Nat) (kind : CommandKind) : Command :=
  { cmd with tag := tag, loan := ⟨slot, 1⟩, first := first, segFirst := first, count := count, kind := kind }
def bay12 (head : Nat) : State :=
  { shelf.modBay 12 (fun x => { x with head := head }) with
    settings := { shelf.settings with profiles := List.replicate 24 { Profile.default with seekExponent := 10, seekCap := 8 } }
    records := [read610 1 17 2000 24 .read, read610 2 17 9000 8 .read, read610 3 63 2100 4 .write, read610 4 80 2104 2 .read]
    channels := [{ Channel.free with busy := true, phase := .queued, chunkFirst := 50000, chunkCount := 16 }, Channel.free] }
def of610 (who : MemberKind) (cls : Cls) (credit : Int) (visited : Bool) (tags : List Nat) : Member :=
  { who := who, cls := cls, credit := credit, visited := visited, queued := tags.map fun t => { node := 1, tag := t } }
/-- The member that the ring step dispatches, and the credits of the ring that it leaves, from the pointer on. -/
def step610 (head : Nat) (ring : List Member) : Option (MemberKind × List (MemberKind × Int)) :=
  (ringStep 8 ((bay12 head).memberCost 12) (ringBound ((bay12 head).memberCost 12) ring) ring).map fun p =>
    (p.1.who, p.2.map fun m => (m.who, m.credit))

theorem test_dispatch_point_1 :
    step610 2000 [of610 (.loan 17) .rush 0 false [1, 2], of610 (.loan 63) .normal 0 false [3], of610 (.channel 0) .bulk 0 false []]
      = some (.loan 17, [(.loan 17, 8), (.loan 63, 0), (.channel 0, 0)]) := by decide +kernel
theorem test_dispatch_point_2 :
    step610 2024 [of610 (.loan 17) .rush 8 true [2], of610 (.loan 63) .normal 0 false [3], of610 (.channel 0) .bulk 0 false []]
      = some (.loan 17, [(.loan 63, 0), (.channel 0, 0)]) := by decide +kernel
theorem test_dispatch_point_4 :
    step610 300064 [of610 (.loan 63) .normal 0 false [3], of610 (.channel 0) .bulk 0 false [], of610 (.loan 80) .normal 0 false [4]]
      = some (.loan 63, [(.channel 0, 0), (.loan 80, 0)]) := by decide +kernel
theorem test_dispatch_point_5 :
    step610 2104 [of610 (.channel 0) .bulk 0 false [], of610 (.loan 80) .normal 0 false [4]]
      = some (.loan 80, [(.channel 0, 8)]) := by decide +kernel
theorem test_dispatch_point_6 : step610 2106 [of610 (.channel 0) .bulk 8 false []] = some (.channel 0, []) := by
  decide +kernel

/-- R93: a stream whose closing an earlier end has set keeps it at a later LINK_LOST, which sets stop. -/
theorem test_second_end_keeps_closing :
    let r : Command := { cmd with kind := .stream, state := .inService, held := 2, closing := some .cancelled }
    ((endWork 0 .linkLost false ref7 (runs r shelf)).record ref7).map (fun x => (x.closing, x.stop)) =
      some (some .cancelled, true) := by decide +kernel

end Sys2Proof.Tests
end

section
/-! PROOFS. The bounds that every step keeps (O59), and that the reset state meets (O60). -/

namespace Sys2Proof.Machine

/-! ### Sizes of the tables -/

/-- The lengths of the tables that `State.Shaped` fixes. -/
def State.sizes (s : State) : List Nat :=
  [s.links.length, s.loans.length, s.bays.length, s.channels.length, s.twins.length, s.settings.profiles.length,
   s.settings.nodeTable.length]

theorem State.shaped_iff_sizes (s : State) :
    s.Shaped ↔ s.sizes = [Config.nodes + 1, Config.slots, Config.bays, Config.channels, Config.twins, Config.bays,
      Config.nodes] := by
  constructor
  · rintro ⟨h1, h2, h3, h4, h5, h6, h7⟩
    simp [State.sizes, *]
  · intro h
    simp only [State.sizes, List.cons.injEq, and_true] at h
    obtain ⟨h1, h2, h3, h4, h5, h6, h7⟩ := h
    exact ⟨h1, h2, h3, h4, h5, h6, h7⟩

theorem place_sizes (l : Nat) (o : OutRecord) (s : State) : (place l o s).sizes = s.sizes := by
  unfold place; split <;> simp [State.sizes, State.modLink]

theorem placeReserved_sizes (l : Nat) (o : OutRecord) (s : State) : (placeReserved l o s).sizes = s.sizes := by
  unfold placeReserved; split <;> simp [State.sizes, State.modLink]

theorem EndMove.sizes {s t : State} (m : EndMove s t) : t.sizes = s.sizes := by
  cases m with
  | place l o => exact place_sizes l o s
  | placeReserved l o => exact placeReserved_sizes l o s
  | giveBack ref n => unfold Machine.giveBack; split <;> rfl
  | drop b ref => simp [State.sizes, ringDrop, State.modBay]
  | _ => simp [State.sizes, State.modRecord]

theorem GrantMove.sizes {s t : State} (m : GrantMove s t) : t.sizes = s.sizes := by
  cases m with
  | ends m => exact m.sizes
  | _ => simp [State.sizes]

theorem Move.sizes {s t : State} (m : Move s t) : t.sizes = s.sizes := by
  cases m with
  | grant m => exact m.sizes
  | lendChannel c n => unfold Machine.lendChannel; split <;> simp [State.sizes, State.modChannel]
  | lend ref n => unfold Machine.lend; split <;> rfl
  | settings x hp hn => simp [State.sizes, hp, hn]
  | _ => simp [State.sizes, setBayState, occur, State.modBay, Machine.giveBackChannel, State.modChannel, tickState]

/-! ### The wait list -/

/-- A part of the list, in its order, is bounded and ordered as the list is. -/
theorem State.WaitsOrdered.of_sublist {s t : State} (h : s.WaitsOrdered) (hs : t.waits.Sublist s.waits) : t.WaitsOrdered :=
  ⟨hs.length_le.trans h.1, h.2.sublist hs⟩

theorem State.WaitsOrdered.of_waits {s t : State} (h : s.WaitsOrdered) (e : t.waits = s.waits) : t.WaitsOrdered :=
  h.of_sublist (e ▸ List.Sublist.refl _)

theorem insertWait_perm (e : WaitEntry) (l : List WaitEntry) : (insertWait e l).Perm (e :: l) := by
  unfold insertWait
  exact List.perm_middle.trans (by rw [List.takeWhile_append_dropWhile])

/-- In an ordered list, what stands behind the entries of class `c` and higher is of a lower class. -/
theorem rank_lt_of_mem_dropWhile {c : Nat} {l : List WaitEntry} (h : l.Pairwise fun a b => a.cls.rank ≤ b.cls.rank)
    {x : WaitEntry} (hx : x ∈ l.dropWhile fun y => y.cls.rank ≤ c) : c < x.cls.rank := by
  induction l with
  | nil => cases hx
  | cons a l ih =>
    rw [List.pairwise_cons] at h
    rw [List.dropWhile_cons] at hx
    split at hx
    · exact ih h.2 hx
    · rename_i ha
      have ha : c < a.cls.rank := by simpa using ha
      rcases List.mem_cons.mp hx with rfl | hx
      · exact ha
      · exact ha.trans_le (h.1 x hx)

/-- R28: a new entry keeps the order of the list. -/
theorem insertWait_pairwise (e : WaitEntry) {l : List WaitEntry} (h : l.Pairwise fun a b => a.cls.rank ≤ b.cls.rank) :
    (insertWait e l).Pairwise fun a b => a.cls.rank ≤ b.cls.rank := by
  have front : ∀ x ∈ l.takeWhile (fun y => y.cls.rank ≤ e.cls.rank), x.cls.rank ≤ e.cls.rank := fun x hx => by
    simpa using List.mem_takeWhile_imp hx
  have back : ∀ x ∈ l.dropWhile (fun y => y.cls.rank ≤ e.cls.rank), e.cls.rank ≤ x.cls.rank := fun x hx =>
    (rank_lt_of_mem_dropWhile h hx).le
  unfold insertWait
  rw [List.pairwise_append, List.pairwise_cons]
  refine ⟨h.sublist (List.takeWhile_sublist _), ⟨back, h.sublist (List.dropWhile_sublist _)⟩, fun a ha b hb => ?_⟩
  rcases List.mem_cons.mp hb with rfl | hb
  · exact front a ha
  · exact (front a ha).trans (back b hb)

theorem GrantMove.waitsOrdered {s t : State} (m : GrantMove s t) (h : s.WaitsOrdered) : t.WaitsOrdered := by
  cases m with
  | ends m => exact h.of_waits m.frame.waits
  | waits ws hs => exact h.of_sublist hs
  | _ => exact h.of_waits rfl

theorem Move.waitsOrdered {s t : State} (m : Move s t) (h : s.WaitsOrdered) : t.WaitsOrdered := by
  cases m with
  | grant m => exact m.waitsOrdered h
  | lendChannel c n => refine h.of_waits ?_; unfold Machine.lendChannel; split <;> rfl
  | lend ref n => refine h.of_waits ?_; unfold Machine.lend; split <;> rfl
  | queue e n hn => exact ⟨(insertWait_perm e s.waits).length_eq.trans_le hn, insertWait_pairwise e h.2⟩
  | remask => exact ⟨by simpa using h.1, List.pairwise_map.mpr h.2⟩
  | _ => exact h.of_waits rfl

/-! ### Weak lists and deferral counts -/

theorem forall_mem_set {α : Type} {p : α → Prop} {as : List α} {i : Nat} {a d : α} (h : ∀ x ∈ as, p x) (hd : p d)
    (ha : p (as.getD i d) → p a) : ∀ x ∈ as.set i a, p x := by
  intro x hx
  rcases List.mem_or_eq_of_mem_set hx with hx | rfl
  · exact h x hx
  · refine ha ?_
    rw [List.getD_eq_getElem?_getD]
    cases e : as[i]? with
    | none => exact hd
    | some y => exact h y (List.mem_of_getElem? e)

theorem Bay.bounded_initial : Bay.initial.bounded := ⟨Nat.zero_le _, List.nodup_nil, Nat.zero_le _⟩

theorem State.BaysBounded.setBay {s : State} {b : Nat} {x : Bay} (h : s.BaysBounded) (hx : (s.bay b).bounded → x.bounded) :
    (s.setBay b x).BaysBounded :=
  forall_mem_set h Bay.bounded_initial hx

theorem State.BaysBounded.of_bays {s t : State} (h : s.BaysBounded) (e : t.bays = s.bays) : t.BaysBounded := by
  unfold State.BaysBounded; rwa [e]

theorem place_bays (l : Nat) (o : OutRecord) (s : State) : (place l o s).bays = s.bays := by
  unfold place; split <;> rfl

theorem placeReserved_bays (l : Nat) (o : OutRecord) (s : State) : (placeReserved l o s).bays = s.bays := by
  unfold placeReserved; split <;> rfl

theorem giveBack_bays (ref : CommandRef) (n : Nat) (s : State) : (giveBack ref n s).bays = s.bays := by
  unfold giveBack; split <;> rfl

theorem GrantMove.baysBounded {s t : State} (m : GrantMove s t) (h : s.BaysBounded) : t.BaysBounded := by
  cases m with
  | ends m =>
    cases m with
    | place l o => exact h.of_bays (place_bays l o s)
    | placeReserved l o => exact h.of_bays (placeReserved_bays l o s)
    | giveBack ref n => exact h.of_bays (giveBack_bays ref n s)
    | drop b ref => exact h.setBay id
    | _ => exact h.of_bays rfl
  | _ => exact h.of_bays rfl

theorem Move.baysBounded {s t : State} (m : Move s t) (h : s.BaysBounded) : t.BaysBounded := by
  cases m with
  | grant m => exact m.baysBounded h
  | bay b x _ hb => exact h.setBay hb
  | bayState b st _ => exact h.setBay id
  | lendChannel c n => refine h.of_bays ?_; unfold Machine.lendChannel; split <;> rfl
  | lend ref n => refine h.of_bays ?_; unfold Machine.lend; split <;> rfl
  | tick =>
    intro x hx
    obtain ⟨y, hy, rfl⟩ := List.mem_map.mp hx
    exact h y hy
  | _ => exact h.of_bays rfl

/-! ### Bays in SPINNING -/

/-- The count of bays in SPINNING rests on the bays' states alone. -/
theorem spinningCount_eq_map (s : State) : s.spinningCount = (s.bays.map Bay.state).countP (· == .spinning) := by
  simp only [State.spinningCount, List.countP_map]; rfl

theorem map_set_of_eq {α β : Type} (f : α → β) {as : List α} {i : Nat} {a d : α} (h : f a = f (as.getD i d)) :
    (as.set i a).map f = as.map f := by
  rw [List.map_set, h]
  by_cases hi : i < as.length
  · rw [List.getD_eq_getElem _ _ hi, ← List.getElem_map f (h := by simpa using hi), List.set_getElem_self]
  · rw [List.set_eq_of_length_le (by simpa using hi)]

/-- Setting one bay's state changes the count of bays in SPINNING by at most the one that enters it. -/
theorem countP_set_le {α : Type} (p : α → Bool) (as : List α) (i : Nat) (a : α) :
    (as.set i a).countP p ≤ as.countP p + if p a then 1 else 0 := by
  induction as generalizing i with
  | nil => simp
  | cons x as ih =>
    cases i with
    | zero => simp only [List.set_cons_zero, List.countP_cons]; omega
    | succ i => simp only [List.set_cons_succ, List.countP_cons]; have := ih i; omega

theorem State.SpinBounded.of_states {s t : State} (h : s.SpinBounded) (e : t.bays.map Bay.state = s.bays.map Bay.state)
    (g : t.settings = s.settings) : t.SpinBounded := by
  unfold State.SpinBounded
  rw [spinningCount_eq_map, e, ← spinningCount_eq_map, g]
  exact h

theorem setBay_states {s : State} {b : Nat} {x : Bay} (h : x.state = (s.bay b).state) :
    (s.setBay b x).bays.map Bay.state = s.bays.map Bay.state :=
  map_set_of_eq Bay.state h

theorem EndMove.states {s t : State} (m : EndMove s t) : t.bays.map Bay.state = s.bays.map Bay.state := by
  cases m with
  | place l o => rw [place_bays]
  | placeReserved l o => rw [placeReserved_bays]
  | giveBack ref n => rw [giveBack_bays]
  | drop b ref => exact setBay_states rfl
  | _ => rfl

theorem GrantMove.spinBounded {s t : State} (m : GrantMove s t) (h : s.SpinBounded) : t.SpinBounded := by
  cases m with
  | ends m => exact h.of_states m.states m.frame.settings
  | _ => exact h.of_states rfl rfl

/-- R128: a bay enters SPINNING only below the spin group size. -/
theorem setBayState_spinBounded {s : State} {b : Nat} {st : BayState} (h : s.SpinBounded)
    (hs : st = .spinning → s.spinningCount < s.settings.spinGroup) : (setBayState b st s).SpinBounded := by
  have count : (setBayState b st s).spinningCount ≤ s.spinningCount + if st == .spinning then 1 else 0 :=
    countP_set_le _ s.bays b _
  refine count.trans ?_
  show _ ≤ s.settings.spinGroup
  by_cases e : st = .spinning
  · rw [if_pos (by simp [e])]; exact hs e
  · rw [if_neg (by simpa using e)]; exact h

theorem Move.spinBounded {s t : State} (m : Move s t) (h : s.SpinBounded) : t.SpinBounded := by
  cases m with
  | grant m => exact m.spinBounded h
  | bay b x hs _ => exact h.of_states (setBay_states hs) rfl
  | bayState b st hs => exact setBayState_spinBounded h hs
  | lendChannel c n => refine h.of_states ?_ ?_ <;> (unfold Machine.lendChannel; split <;> rfl)
  | lend ref n => refine h.of_states ?_ ?_ <;> (unfold Machine.lend; split <;> rfl)
  | settings x _ _ hg => exact hg h
  | tick => exact h.of_states (by simp [tickState, Bay.tick, Function.comp_def]) rfl
  | _ => exact h.of_states rfl rfl

/-! ### The links' queues -/

theorem Link.bounded_initial : Link.initial.bounded := ⟨Nat.zero_le _, Nat.zero_le _⟩

theorem State.LinksBounded.setLink {s : State} {l : Nat} {x : Link} (h : s.LinksBounded)
    (hx : (s.link l).bounded → x.bounded) : (s.setLink l x).LinksBounded :=
  forall_mem_set h Link.bounded_initial hx

theorem State.LinksBounded.of_links {s t : State} (h : s.LinksBounded) (e : t.links = s.links) : t.LinksBounded := by
  unfold State.LinksBounded; rwa [e]

/-- R172: a record is placed without a reservation only into a free, unreserved entry. -/
theorem place_linksBounded (l : Nat) (o : OutRecord) {s : State} (h : s.LinksBounded) : (place l o s).LinksBounded := by
  unfold place
  split
  · rename_i hr
    refine h.setLink fun hb => ⟨hb.1, ?_⟩
    have free : (s.link l).presence = true ∧ 0 < (s.link l).free := by simpa [State.hasRoom] using hr
    have := hb.2
    simp only [Link.free, Link.beginSending, List.length_append, List.length_singleton] at free ⊢
    omega
  · exact h

/-- R172: a reply takes the entry that was reserved for it. -/
theorem placeReserved_linksBounded (l : Nat) (o : OutRecord) {s : State} (h : s.LinksBounded) :
    (placeReserved l o s).LinksBounded := by
  unfold placeReserved
  split
  · rename_i hr
    refine h.setLink fun hb => ⟨hb.1, ?_⟩
    have := hb.2
    have := hr.2
    simp only [Link.beginSending, List.length_append, List.length_singleton]
    omega
  · exact h

theorem GrantMove.linksBounded {s t : State} (m : GrantMove s t) (h : s.LinksBounded) : t.LinksBounded := by
  cases m with
  | ends m =>
    cases m with
    | place l o => exact place_linksBounded l o h
    | placeReserved l o => exact placeReserved_linksBounded l o h
    | giveBack ref n => refine h.of_links ?_; unfold Machine.giveBack; split <;> rfl
    | _ => exact h.of_links rfl
  | _ => exact h.of_links rfl

theorem Move.linksBounded {s t : State} (m : Move s t) (h : s.LinksBounded) : t.LinksBounded := by
  cases m with
  | grant m => exact m.linksBounded h
  | link l x hx => exact h.setLink hx
  | lendChannel c n => refine h.of_links ?_; unfold Machine.lendChannel; split <;> rfl
  | lend ref n => refine h.of_links ?_; unfold Machine.lend; split <;> rfl
  | _ => exact h.of_links rfl

/-! ### Chains and resets -/

/-- What a chain of moves keeps: the tables' sizes, and each of the bounds that hold where it begins. -/
structure KeepsBounds (s t : State) : Prop where
  sizes : t.sizes = s.sizes
  waits : s.WaitsOrdered → t.WaitsOrdered
  bays  : s.BaysBounded → t.BaysBounded
  spin  : s.SpinBounded → t.SpinBounded
  links : s.LinksBounded → t.LinksBounded

theorem Chain.keepsBounds {s t : State} (c : Chain s t) : KeepsBounds s t := by
  induction c with
  | refl => exact ⟨rfl, id, id, id, id⟩
  | tail _ m ih =>
    exact ⟨m.sizes.trans ih.sizes, fun h => m.waitsOrdered (ih.waits h), fun h => m.baysBounded (ih.bays h),
      fun h => m.spinBounded (ih.spin h), fun h => m.linksBounded (ih.links h)⟩

theorem placeRestarted_chain (s : State) : Chain s (placeRestarted s) :=
  foldl_chain _ (fun _ _ => (EndMove.place _ _ _).shelf) _ s

theorem eachBay_chain (f : Nat → State → State) (h : ∀ b s, Chain s (f b s)) (s : State) : Chain s (s.eachBay f) :=
  foldl_chain _ (fun s b => h b s) _ s

theorem Bay.afterReset_state (p : Profile) (x : Bay) : (x.afterReset p).state = x.state := by
  unfold Bay.afterReset; split <;> rfl

theorem Bay.afterReset_bounded (p : Profile) {x : Bay} (h : x.bounded) : (x.afterReset p).bounded := by
  have cleared := clearArbiter_bounded x h
  unfold Bay.afterReset
  split
  · exact cleared
  · exact cleared
  · exact h
  · exact cleared
  · exact cleared
  · exact h
  · exact h
  · exact h

theorem BayState.afterReset_ne_spinning (st : BayState) : st.afterReset ≠ .spinning := by cases st <;> decide

theorem resetBay_chain (b : Nat) (s : State) : Chain s (resetBay b s) := by
  unfold resetBay
  dsimp only
  have reset : Chain s (s.modBay b (Bay.afterReset (s.profile b))) :=
    modBay_chain _ _ _ (Bay.afterReset_state _) fun _ => Bay.afterReset_bounded _
  have state : Chain s (if (s.bay b).state.afterReset = (s.bay b).state then s.modBay b (Bay.afterReset (s.profile b))
      else setBayState b (s.bay b).state.afterReset (s.modBay b (Bay.afterReset (s.profile b)))) :=
    .ite (fun _ => reset) fun _ => reset.trans (setBayState_chain _ _ _ (BayState.afterReset_ne_spinning _))
  exact .ite (fun _ => state.trans (Move.spinQueue _ _).chain) fun _ => state

theorem powerBay_chain (b : Nat) (s : State) : Chain s (powerBay b s) := by
  unfold powerBay
  refine .ite (fun _ => (enterSpinWait_chain b s).trans (modBay_chain _ _ _ ?_ ?_)) fun _ => .refl
  · exact fun _ => rfl
  · exact fun _ h => h

/-! ### No bay is in SPINNING after a reset (R148) -/

theorem spinningCount_eq_zero {s : State} (h : ∀ b < s.bays.length, (s.bay b).state ≠ .spinning) : s.spinningCount = 0 := by
  refine List.countP_eq_zero.mpr fun x hx => ?_
  obtain ⟨b, hb, rfl⟩ := List.getElem_of_mem hx
  have := h b hb
  rw [State.bay, List.getD_eq_getElem _ _ hb] at this
  simpa using this

/-- A change of a bay that keeps its state changes no bay's state. -/
theorem state_modBay (b c : Nat) (f : Bay → Bay) (s : State) (hf : ∀ x, (f x).state = x.state) :
    ((s.modBay b f).bay c).state = (s.bay c).state := by
  by_cases e : b = c
  · subst e
    by_cases hb : b < s.bays.length
    · rw [State.modBay, State.bay_setBay_self _ _ _ hb, hf]
    · rw [State.modBay, State.setBay, List.set_eq_of_length_le (Nat.le_of_not_lt hb)]
  · rw [State.modBay, State.bay_setBay_ne _ _ _ _ e]

theorem state_setBayState (b c : Nat) (st : BayState) (s : State) (hb : b < s.bays.length) :
    ((setBayState b st s).bay c).state = if b = c then st else (s.bay c).state := by
  show ((s.setBay b { s.bay b with state := st }).bay c).state = _
  split
  · subst b; rw [State.bay_setBay_self _ _ _ hb]
  · rw [State.bay_setBay_ne _ _ _ _ ‹_›]

/-- R148: each bay's state after the reset of one of the part's bays. -/
theorem state_resetBay (b c : Nat) (s : State) (hb : b < s.bays.length) :
    ((resetBay b s).bay c).state = if b = c then (s.bay b).state.afterReset else (s.bay c).state := by
  have reset (c : Nat) := state_modBay b c (Bay.afterReset (s.profile b)) s (Bay.afterReset_state _)
  have set := state_setBayState b c (s.bay b).state.afterReset (s.modBay b (Bay.afterReset (s.profile b))) (by simpa [State.modBay])
  have queue (u : State) (p : Prop) [Decidable p] (q : List Nat) :
      (if p then { u with spinQueue := q } else u).bay c = u.bay c := by split <;> rfl
  unfold resetBay
  dsimp only
  rw [queue]
  split
  · rename_i same
    rw [reset]
    split
    · subst b; exact same.symm
    · rfl
  · rw [set, reset]

theorem resetBay_sizes (b : Nat) (s : State) : (resetBay b s).sizes = s.sizes := (resetBay_chain b s).keepsBounds.sizes

theorem State.bays_length_of_sizes {s t : State} (h : t.sizes = s.sizes) : t.bays.length = s.bays.length := by
  simp only [State.sizes, List.cons.injEq] at h
  exact h.2.2.1

/-- R148: no bay of those that have been reset is in SPINNING. -/
theorem foldl_resetBay_ne_spinning (bs : List Nat) (s : State) (hb : ∀ b ∈ bs, b < s.bays.length) (c : Nat)
    (h : c ∈ bs ∨ (s.bay c).state ≠ .spinning) :
    ((bs.foldl (fun s b => resetBay b s) s).bay c).state ≠ .spinning := by
  induction bs generalizing s with
  | nil => simpa using h
  | cons b bs ih =>
    have size := State.bays_length_of_sizes (resetBay_sizes b s)
    refine ih (resetBay b s) (fun x hx => size ▸ hb x (List.mem_cons_of_mem b hx)) ?_
    rw [state_resetBay b c s (hb b List.mem_cons_self)]
    by_cases e : b = c
    · exact .inr (by rw [if_pos e]; exact BayState.afterReset_ne_spinning _)
    · rw [if_neg e]
      exact h.imp (fun h => (List.mem_cons.mp h).resolve_left (Ne.symm e)) id

theorem placeRestarted_bays (s : State) : (placeRestarted s).bays = s.bays := by
  unfold placeRestarted
  generalize List.range Config.nodes = ns
  induction ns generalizing s with
  | nil => rfl
  | cons n ns ih => exact (ih _).trans (place_bays _ _ s)

theorem warmReset_chain (s : State) : Chain (clearService s) (warmReset s) :=
  (eachBay_chain _ resetBay_chain _).trans (placeRestarted_chain _)

/-- R148: after a pin reset or RESET SHELF no bay is in SPINNING. -/
theorem warmReset_spinningCount (s : State) (h : s.bays.length = Config.bays) : (warmReset s).spinningCount = 0 := by
  have size : (warmReset s).bays.length = Config.bays :=
    (State.bays_length_of_sizes (warmReset_chain s).keepsBounds.sizes).trans h
  refine spinningCount_eq_zero fun b hb => ?_
  rw [State.bay, warmReset, placeRestarted_bays]
  exact foldl_resetBay_ne_spinning _ (clearService s) (fun x hx => h.symm ▸ List.mem_range.mp hx) b
    (.inl (List.mem_range.mpr (size ▸ hb)))

theorem clearService_shaped {s : State} (h : s.Shaped) : (clearService s).Shaped :=
  ⟨by simpa [clearService] using h.links, by simpa [clearService] using h.loans, h.bays, by simp [clearService],
   by simp [clearService], h.profiles, h.nodeTable⟩

theorem clearService_linksBounded (s : State) : (clearService s).LinksBounded := by
  intro x hx
  obtain ⟨i, hi, rfl⟩ := List.mem_mapIdx.mp hx
  exact Link.bounded_initial

theorem clearService_waitsOrdered (s : State) : (clearService s).WaitsOrdered := ⟨Nat.zero_le _, List.Pairwise.nil⟩

theorem loadSettings_shaped {s : State} (h : s.Shaped) : (loadSettings s).Shaped := by
  have size : (loadImage s.store).1.profiles.length = Config.bays ∧ (loadImage s.store).1.nodeTable.length = Config.nodes := by
    unfold loadImage
    split
    · simp [settingsOf]
    · exact ⟨by decide, by decide⟩
  exact ⟨h.links, h.loans, h.bays, h.channels, h.twins, size.1, size.2⟩

/-- What every step keeps but that no scan stays owed: `t` is shaped as `s` is, and has each of the bounds that `s` has. -/
structure BoundsHold (s t : State) : Prop where
  shaped : t.Shaped
  waits  : s.WaitsOrdered → t.WaitsOrdered
  bays   : s.BaysBounded → t.BaysBounded
  spin   : s.SpinBounded → t.SpinBounded
  links  : s.LinksBounded → t.LinksBounded

theorem Chain.boundsHold {s t : State} (c : Chain s t) (h : s.Shaped) : BoundsHold s t :=
  have k := c.keepsBounds
  ⟨by rw [State.shaped_iff_sizes] at h ⊢; rw [k.sizes, h], k.waits, k.bays, k.spin, k.links⟩

theorem warmReset_boundsHold {s u : State} (h : u.Shaped) (hb : s.BaysBounded → u.BaysBounded) :
    BoundsHold s (warmReset u) := by
  have k := (warmReset_chain u).boundsHold (clearService_shaped h)
  refine ⟨k.shaped, fun _ => k.waits (clearService_waitsOrdered u), fun b => k.bays (hb b), fun _ => ?_,
    fun _ => k.links (clearService_linksBounded u)⟩
  rw [State.SpinBounded, warmReset_spinningCount u h.bays]
  exact Nat.zero_le _

/-- What power-on leaves before the settings are loaded: the loan table, the bays and the cause of R1, R147 and R190. -/
def poweredBase (s : State) : State :=
  { clearService s with
    loans := List.replicate Config.slots { issue := 0, loan := none }
    bays := s.bays.map Bay.powered
    cause := { power := true, pin := false, shelf := false, defaults := false } }

theorem powerOn_eq (s : State) : powerOn s = placeRestarted ((loadSettings (poweredBase s)).eachBay powerBay) := rfl

theorem powerOn_boundsHold {s : State} (h : s.Shaped) : BoundsHold s (powerOn s) := by
  have base : (loadSettings (poweredBase s)).Shaped := by
    have c := clearService_shaped h
    exact loadSettings_shaped ⟨c.links, by simp [poweredBase], by simpa [poweredBase] using h.bays, c.channels, c.twins,
      h.profiles, h.nodeTable⟩
  have c : Chain (loadSettings (poweredBase s)) (powerOn s) :=
    (eachBay_chain _ powerBay_chain _).trans (placeRestarted_chain _)
  have k := c.boundsHold base
  refine ⟨k.shaped, fun _ => k.waits (clearService_waitsOrdered s), fun _ => k.bays fun x hx => ?_, fun _ => k.spin ?_,
    fun _ => k.links (clearService_linksBounded s)⟩
  · obtain ⟨y, _, rfl⟩ := List.mem_map.mp hx
    exact Bay.bounded_initial
  · have none : (loadSettings (poweredBase s)).spinningCount = 0 := by
      simp [State.spinningCount, loadSettings, poweredBase, List.countP_map, Function.comp_def, Bay.powered, Bay.initial]
    rw [State.SpinBounded, none]
    exact Nat.zero_le _

theorem State.Shaped.withCause {s : State} (h : s.Shaped) (x : Cause) : ({ s with cause := x } : State).Shaped :=
  ⟨h.links, h.loans, h.bays, h.channels, h.twins, h.profiles, h.nodeTable⟩

theorem resetShelf_boundsHold (reload : Bool) {s u : State} (h : u.Shaped) (hb : s.BaysBounded → u.BaysBounded) :
    BoundsHold s (resetShelf reload u) := by
  unfold resetShelf
  have flagged := h.withCause { u.cause with shelf := true }
  dsimp only
  split
  · exact warmReset_boundsHold (loadSettings_shaped flagged) hb
  · exact warmReset_boundsHold flagged hb

/-- A handling's next state, if it has one, is shaped and has the bounds. -/
theorem exec_boundsHold (c : Instr) {s t : State} (h : s.Shaped) (e : exec c s = .next t) : BoundsHold s t := by
  by_cases r : isReset c = false
  · exact Chain.boundsHold (exec_chain c s r t e) h
  cases c <;> simp only [isReset, not_true_eq_false] at r
  case powerOn =>
    obtain rfl : powerOn s = t := Host.Outcome.next.inj e
    exact powerOn_boundsHold h
  case pinReset =>
    obtain rfl : warmReset { s with cause := { s.cause with pin := true } } = t := Host.Outcome.next.inj e
    exact warmReset_boundsHold (h.withCause _) id
  case resetShelf =>
    change execResetShelf s = _ at e
    unfold execResetShelf at e
    split at e
    · cases e; exact Chain.boundsHold .refl h
    · rename_i f u taken
      have k := Chain.boundsHold (takeHead_chain taken) h
      obtain rfl := Host.Outcome.next.inj e
      exact resetShelf_boundsHold _ k.shaped k.bays

/-! ### No grant scan stays owed -/

/-- A next state owes no grant scan where the state before owes none. -/
def Settles (s : State) (r : Result) : Prop := s.Settled → ∀ t, r = .next t → t.Settled

theorem Settles.next {s t : State} (h : s.Settled → t.Settled) : Settles s (.next t) := fun hs _ e => by cases e; exact h hs
theorem Settles.refused (s : State) (r : Refusal) : Settles s (.refused r) := fun _ _ e => by cases e
theorem Settles.stay (s : State) : Settles s (.next s) := .next id
theorem Settles.finished (s u : State) : Settles s (.next (finish u)) := .next fun _ => finish_scanDue u
theorem Settles.same {s t : State} (h : t.scanDue = s.scanDue) : Settles s (.next t) := .next h.trans
theorem Settles.ite {c : Prop} [Decidable c] {s : State} {a b : Result} (ha : Settles s a) (hb : Settles s b) :
    Settles s (if c then a else b) := by
  split
  · exact ha
  · exact hb

/-- A command that ends its handling, where it is due. -/
theorem Settles.finishIf {c : Prop} [Decidable c] (s u : State) : Settles s (.next (if c then finish u else s)) := by
  split
  · exact .finished s u
  · exact .stay s

/-- A command that changes only parts that owe no scan, where it is due. -/
theorem Settles.sameIf {c : Prop} [Decidable c] {s u v : State} (hu : u.scanDue = s.scanDue) (hv : v.scanDue = s.scanDue) :
    Settles s (.next (if c then u else v)) := by
  split
  · exact .same hu
  · exact .same hv

theorem taking_settles (l kind : Nat) (needs : List Byte → Nat) (act : Frame → State → State) (s : State) :
    Settles s (taking l kind needs act s) := by
  unfold taking
  split
  · exact .stay s
  · exact .finished _ _

theorem onNode_settles (n : Nat) (act : State → Result) (s : State) (h : Settles s (act s)) : Settles s (onNode n act s) :=
  .ite h (.refused _ _)
theorem onBay_settles (b : Nat) (act : State → Result) (s : State) (h : Settles s (act s)) : Settles s (onBay b act s) :=
  .ite h (.refused _ _)
theorem onLink_settles (l : Nat) (act : State → Result) (s : State) (h : Settles s (act s)) : Settles s (onLink l act s) :=
  .ite h (.refused _ _)

@[simp] theorem place_scanDue (l : Nat) (o : OutRecord) (s : State) : (place l o s).scanDue = s.scanDue := by
  unfold place; split <;> rfl
@[simp] theorem placeReserved_scanDue (l : Nat) (o : OutRecord) (s : State) :
    (placeReserved l o s).scanDue = s.scanDue := by
  unfold placeReserved; split <;> rfl
@[simp] theorem lend_scanDue (ref : CommandRef) (n : Nat) (s : State) : (lend ref n s).scanDue = s.scanDue := by
  unfold lend; split <;> rfl
@[simp] theorem lendChannel_scanDue (c n : Nat) (s : State) : (lendChannel c n s).scanDue = s.scanDue := by
  unfold lendChannel; split <;> rfl
@[simp] theorem startUnit_scanDue (b : Nat) (u : DiskUnit) (s : State) : (startUnit b u s).scanDue = s.scanDue := by
  unfold startUnit
  dsimp only
  split
  · split <;> rfl
  all_goals rfl

theorem dispatchUnit_scanDue (b : Nat) (u : DiskUnit) (s : State) : (dispatchUnit b u s).scanDue = s.scanDue := by
  unfold dispatchUnit
  dsimp only
  split
  · split
    · split
      · simp
      · split
        · simp
        · rfl
    · rfl
  · split
    · simp
    · rfl
  · simp

/-- A dispatch point owes no grant scan. -/
theorem dispatch_scanDue (b : Nat) (s : State) : (dispatch b s).scanDue = s.scanDue := by
  unfold dispatch
  split
  · rfl
  · have defer (p : Prop) [Decidable p] (f : Bay → Bay) : (if p then s.modBay b f else s).scanDue = s.scanDue := by
      split <;> rfl
    dsimp only
    split
    · rw [startUnit_scanDue]; exact defer _ _
    · split
      · rw [dispatchUnit_scanDue]; exact defer _ _
      · exact defer _ _

theorem admitFrom_scanDue (q : List Nat) (s : State) : (admitFrom q s).scanDue = s.scanDue := by
  induction q generalizing s with
  | nil => rfl
  | cons b q ih =>
    unfold admitFrom
    split
    · rw [ih]; rfl
    · rfl

theorem foldl_scanDue {α : Type} (g : State → α → State) (h : ∀ s a, (g s a).scanDue = s.scanDue) (as : List α) (s : State) :
    (as.foldl g s).scanDue = s.scanDue := by
  induction as generalizing s with
  | nil => rfl
  | cons a as ih => exact (ih _).trans (h s a)

theorem placeRestarted_scanDue (s : State) : (placeRestarted s).scanDue = s.scanDue :=
  foldl_scanDue _ (fun s _ => place_scanDue _ _ s) _ s

theorem resetBay_scanDue (b : Nat) (s : State) : (resetBay b s).scanDue = s.scanDue := by
  unfold resetBay
  dsimp only
  split <;> split <;> rfl

theorem powerBay_scanDue (b : Nat) (s : State) : (powerBay b s).scanDue = s.scanDue := by
  unfold powerBay
  split <;> rfl

theorem warmReset_settled (s : State) : (warmReset s).Settled := by
  unfold State.Settled warmReset
  rw [placeRestarted_scanDue, State.eachBay, foldl_scanDue _ (fun s b => resetBay_scanDue b s)]
  rfl

theorem powerOn_settled (s : State) : (powerOn s).Settled := by
  rw [State.Settled, powerOn_eq, placeRestarted_scanDue, State.eachBay, foldl_scanDue _ (fun s b => powerBay_scanDue b s)]
  rfl

/-- R33: every command leaves no grant scan owed. -/
theorem exec_settles (c : Instr) (s : State) : Settles s (exec c s) := by
  cases c with
  | borrow n =>
    show Settles s (execBorrow n s)
    unfold execBorrow
    exact onNode_settles _ _ _ (taking_settles _ _ _ _ _)
  | withdraw n =>
    show Settles s (execWithdraw n s)
    unfold execWithdraw
    exact onNode_settles _ _ _ (taking_settles _ _ _ _ _)
  | returnLoan n =>
    show Settles s (execReturn n s)
    unfold execReturn
    exact onNode_settles _ _ _ (taking_settles _ _ _ _ _)
  | hold n =>
    show Settles s (execHold n s)
    unfold execHold
    exact onNode_settles _ _ _ (taking_settles _ _ _ _ _)
  | query n =>
    show Settles s (execQuery n s)
    unfold execQuery
    exact onNode_settles _ _ _ (taking_settles _ _ _ _ _)
  | read n =>
    show Settles s (execRead n s)
    unfold execRead
    exact onNode_settles _ _ _ (taking_settles _ _ _ _ _)
  | write n =>
    show Settles s (execWrite n s)
    unfold execWrite
    refine onNode_settles _ _ _ ?_
    split
    · exact .stay s
    · exact .finished _ _
  | data n =>
    show Settles s (execData n s)
    unfold execData
    exact onNode_settles _ _ _ (taking_settles _ _ _ _ _)
  | stream n =>
    show Settles s (execStream n s)
    unfold execStream
    exact onNode_settles _ _ _ (taking_settles _ _ _ _ _)
  | cancel n =>
    show Settles s (execCancel n s)
    unfold execCancel
    exact onNode_settles _ _ _ (taking_settles _ _ _ _ _)
  | unknownKindFrame l =>
    show Settles s (execUnknownKindFrame l s)
    unfold execUnknownKindFrame
    refine onLink_settles _ _ _ ?_
    split
    · exact .stay s
    · exact .ite (.stay s) (taking_settles _ _ _ _ _)
  | setBay => exact taking_settles _ _ _ _ _
  | setNode => exact taking_settles _ _ _ _ _
  | setShelf => exact taking_settles _ _ _ _ _
  | copy => exact taking_settles _ _ _ _ _
  | haltCopy => exact taking_settles _ _ _ _ _
  | dropTwin => exact taking_settles _ _ _ _ _
  | releaseBay => exact taking_settles _ _ _ _ _
  | restoreBay => exact taking_settles _ _ _ _ _
  | reclaim => exact taking_settles _ _ _ _ _
  | report => exact taking_settles _ _ _ _ _
  | readCause => exact taking_settles _ _ _ _ _
  | arm => exact taking_settles _ _ _ _ _
  | save => exact taking_settles _ _ _ _ _
  | resetShelf =>
    show Settles s (execResetShelf s)
    unfold execResetShelf
    split
    · exact .stay s
    · exact .next fun _ => warmReset_settled _
  | powerOn => exact .next fun _ => powerOn_settled s
  | pinReset => exact .next fun _ => warmReset_settled _
  | frameArrive l bytes =>
    show Settles s (execFrameArrive l bytes s)
    unfold execFrameArrive
    exact onLink_settles _ _ _ (.same rfl)
  | recordSent l fr =>
    show Settles s (execRecordSent l fr s)
    unfold execRecordSent
    exact onLink_settles _ _ _ (.finishIf _ _)
  | farReadyRise l =>
    show Settles s (execFarReadyRise l s)
    unfold execFarReadyRise
    exact onLink_settles _ _ _ (.same rfl)
  | nodePresenceFall n =>
    show Settles s (execNodePresenceFall n s)
    unfold execNodePresenceFall
    exact onNode_settles _ _ _ (.finishIf _ _)
  | nodePresenceRise n fr =>
    show Settles s (execNodePresenceRise n fr s)
    unfold execNodePresenceRise
    exact onNode_settles _ _ _ (.sameIf rfl (by rw [place_scanDue]; rfl))
  | supervisorPresenceFall =>
    show Settles s (execSupervisorPresenceFall s)
    unfold execSupervisorPresenceFall
    exact .sameIf rfl rfl
  | supervisorPresenceRise fr =>
    show Settles s (execSupervisorPresenceRise fr s)
    unfold execSupervisorPresenceRise
    exact .sameIf rfl rfl
  | idleClockExpiry k =>
    show Settles s (execIdleClockExpiry k s)
    unfold execIdleClockExpiry
    refine .ite (.refused _ _) ?_
    split
    · exact .finishIf _ _
    · exact .stay s
  | dataGapExpiry n t =>
    show Settles s (execDataGapExpiry n t s)
    unfold execDataGapExpiry
    refine onNode_settles _ _ _ (.ite (.refused _ _) ?_)
    split
    · exact .finishIf _ _
    · exact .stay s
  | upkeepTimerExpiry b =>
    show Settles s (execUpkeepTimerExpiry b s)
    unfold execUpkeepTimerExpiry
    exact onBay_settles _ _ _ (.sameIf rfl rfl)
  | spinUpTimeout b =>
    show Settles s (execSpinUpTimeout b s)
    unfold execSpinUpTimeout
    exact onBay_settles _ _ _ (.finishIf _ _)
  | identifyTimeout b =>
    show Settles s (execIdentifyTimeout b s)
    unfold execIdentifyTimeout
    exact onBay_settles _ _ _ (.finishIf _ _)
  | operationNoAnswer b =>
    show Settles s (execOperationNoAnswer b s)
    unfold execOperationNoAnswer
    exact onBay_settles _ _ _ (.finishIf _ _)
  | spinDownTimeout b =>
    show Settles s (execSpinDownTimeout b s)
    unfold execSpinDownTimeout
    exact onBay_settles _ _ _ (.sameIf rfl rfl)
  | spinUpReady b op =>
    show Settles s (execSpinUpReady b op s)
    unfold execSpinUpReady
    exact onBay_settles _ _ _ (.sameIf rfl rfl)
  | identifyAnswer b op c =>
    show Settles s (execIdentifyAnswer b op c s)
    unfold execIdentifyAnswer
    exact onBay_settles _ _ _ (.ite (.refused _ _) (.ite (.finished _ _) (.stay s)))
  | readBlockAnswer b op o =>
    show Settles s (execReadBlockAnswer b op o s)
    unfold execReadBlockAnswer
    refine onBay_settles _ _ _ (.ite (.refused _ _) ?_)
    split
    · exact .ite (.finished _ _) (.stay s)
    · exact .stay s
  | writeBlockAnswer b op o =>
    show Settles s (execWriteBlockAnswer b op o s)
    unfold execWriteBlockAnswer
    refine onBay_settles _ _ _ ?_
    split
    · exact .ite (.finished _ _) (.stay s)
    · exact .stay s
  | verifyRunAnswer b op o =>
    show Settles s (execVerifyRunAnswer b op o s)
    unfold execVerifyRunAnswer
    refine onBay_settles _ _ _ ?_
    split
    · exact .ite (.stay s) (.ite (.finished _ _) (.refused _ _))
    · exact .stay s
  | spinDownDone b op =>
    show Settles s (execSpinDownDone b op s)
    unfold execSpinDownDone
    exact onBay_settles _ _ _ (.sameIf rfl rfl)
  | bayPresenceRise b =>
    show Settles s (execBayPresenceRise b s)
    unfold execBayPresenceRise
    refine onBay_settles _ _ _ (.sameIf rfl ?_)
    dsimp only
    split
    · unfold seated; split <;> rfl
    · rfl
  | bayPresenceFall b =>
    show Settles s (execBayPresenceFall b s)
    unfold execBayPresenceFall
    exact onBay_settles _ _ _ (.finishIf _ _)
  | releaseButtonPress b =>
    show Settles s (execReleaseButtonPress b s)
    unfold execReleaseButtonPress
    exact onBay_settles _ _ _ (.finishIf _ _)
  | saveComplete =>
    show Settles s (execSaveComplete s)
    unfold execSaveComplete
    refine .same ?_
    split
    · unfold saveComplete
      dsimp only
      split
      · rw [placeReserved_scanDue]
      · rfl
    · rfl
  | dispatchPoint b =>
    show Settles s (execDispatchPoint b s)
    unfold execDispatchPoint
    exact onBay_settles _ _ _ (.sameIf (dispatch_scanDue b s) rfl)
  | poolServe => exact .finished _ _
  | dataPlaceWaiting n =>
    show Settles s (execDataPlaceWaiting n s)
    unfold execDataPlaceWaiting
    exact onNode_settles _ _ _ (.finishIf _ _)
  | loanNoticePlace n =>
    show Settles s (execLoanNoticePlace n s)
    unfold execLoanNoticePlace
    refine onNode_settles _ _ _ ?_
    split
    · split
      · exact .finished _ _
      · exact .stay s
    · exact .stay s
  | noticePlace =>
    show Settles s (execNoticePlace s)
    unfold execNoticePlace
    refine .same ?_
    split
    · split
      · unfold placeNotice; simp
      · rfl
    · rfl
  | spinAdmit =>
    show Settles s (execSpinAdmit s)
    unfold execSpinAdmit
    exact .same (admitFrom_scanDue _ _)
  | segmentBoundary n t =>
    show Settles s (execSegmentBoundary n t s)
    unfold execSegmentBoundary
    refine onNode_settles _ _ _ (.ite (.refused _ _) ?_)
    split
    · exact .finishIf _ _
    · exact .stay s
  | heldMoveCarryOut k =>
    show Settles s (execHeldMoveCarryOut k s)
    unfold execHeldMoveCarryOut
    refine .ite (.refused _ _) ?_
    split
    · split
      · exact .finishIf _ _
      · exact .stay s
    · exact .stay s
  | drainComplete b =>
    show Settles s (execDrainComplete b s)
    unfold execDrainComplete
    exact onBay_settles _ _ _ (.sameIf rfl rfl)
  | copyEnd c =>
    show Settles s (execCopyEnd c s)
    unfold execCopyEnd
    exact .ite (.refused _ _) (.finishIf _ _)
  | tick => exact .same rfl
  | overlongFrameDiscard l n =>
    show Settles s (execOverlongFrameDiscard l n s)
    unfold execOverlongFrameDiscard
    exact onLink_settles _ _ _ (.ite (.same rfl) (.refused _ _))

/-- A step is the idling of the block, or a command on the state with the queue's rest. -/
theorem step_cases {s t : State} (h : step s = .next t) :
    t = s ∨ ∃ c rest, s.pending = c :: rest ∧ exec c { s with pending := rest } = .next t := by
  unfold step at h
  split at h
  · exact .inl (Host.Outcome.next.inj h).symm
  · exact .inr ⟨_, _, ‹_›, h⟩

/-- Settles O59: an invariant of every step, by the moves of a command (`exec_chain`) and the three resets. -/
theorem boundsKept : Obligations.BoundsKept := by
  intro s t shaped e
  rcases step_cases e with rfl | ⟨c, rest, _, e⟩
  · exact ⟨shaped, id, id, id, id, id⟩
  · have front : ({ s with pending := rest } : State).Shaped :=
      ⟨shaped.links, shaped.loans, shaped.bays, shaped.channels, shaped.twins, shaped.profiles, shaped.nodeTable⟩
    obtain ⟨sh, waits, bays, spin, links⟩ := exec_boundsHold c front e
    exact ⟨sh, waits, fun h => exec_settles c { s with pending := rest } h t e, bays, spin, links⟩

/-- Settles O60: the reset state's parts are closed terms. -/
theorem resetMeetsInvariants : Obligations.ResetMeetsInvariants := by
  refine ⟨⟨rfl, rfl, rfl, rfl, rfl, rfl, rfl⟩, ⟨by decide, ?_⟩, ?_, ?_, ?_, ⟨by decide, .nil⟩, rfl, rfl⟩
  · intro c hc _
    rw [List.eq_of_mem_replicate hc]; rfl
  · intro x hx
    rw [List.eq_of_mem_replicate hx]; exact Link.bounded_initial
  · intro x hx
    rw [List.eq_of_mem_replicate hx]; exact Bay.bounded_initial
  · show State.reset.spinningCount ≤ State.reset.settings.spinGroup
    decide

end Sys2Proof.Machine
end

section
/-! PROOFS. What a frame that is taken reads, and the answers of HOLD, QUERY, and of a BORROW that fails a check (O9, O10, O13). -/

namespace Sys2Proof.Machine

/-! ### Taking a frame and answering it -/

/-- The link after its head frame has been taken with `k` entries reserved. -/
def Link.reserving (x : Link) (k : Nat) : Link := { x.taken with reserved := x.reserved + k }

/-- The state after the head frame of link `l` has been taken with `k` entries reserved: what its handling begins from. -/
def State.took (s : State) (l k : Nat) : State := s.setLink l ((s.link l).reserving k)

theorem onNode_eq {n : Nat} (hn : isNode n = true) (act : State → Result) (s : State) : onNode n act s = act s := if_pos hn

/-- A node's command whose frame can be taken runs its act on the state that has taken the frame. -/
theorem State.CanTake.onNode {s : State} {n kind : Nat} {f : Frame} {needs : List Byte → Nat} (hn : isNode n = true)
    (h : s.CanTake n kind (needs f.body) f) (act : Frame → State → State) :
    Machine.onNode n (Machine.taking n kind needs act) s = .next (finish (act f (s.took n (needs f.body)))) := by
  rw [onNode_eq hn]
  exact h.taking act

section
variable (s : State) (l : Nat) (x : Link)

/-! What does not rest on the links is read alike after one of them has changed. -/

@[simp] theorem State.slot_setLink (k : Nat) : (s.setLink l x).slot k = s.slot k := rfl
@[simp] theorem State.loan_setLink (k : Nat) : (s.setLink l x).loan k = s.loan k := rfl
@[simp] theorem State.bay_setLink (b : Nat) : (s.setLink l x).bay b = s.bay b := rfl
@[simp] theorem State.twin_setLink (t : Nat) : (s.setLink l x).twin t = s.twin t := rfl
@[simp] theorem State.profile_setLink (b : Nat) : (s.setLink l x).profile b = s.profile b := rfl
@[simp] theorem State.nodeEntry_setLink (n : Nat) : (s.setLink l x).nodeEntry n = s.nodeEntry n := rfl
@[simp] theorem State.record_setLink (ref : CommandRef) : (s.setLink l x).record ref = s.record ref := rfl
@[simp] theorem State.recordsOf_setLink (k : Nat) : (s.setLink l x).recordsOf k = s.recordsOf k := rfl
@[simp] theorem State.matchLoan_setLink (n : Option Nat) (id : LoanId) :
    (s.setLink l x).matchLoan n id = s.matchLoan n id := rfl
@[simp] theorem State.tagPending_setLink (n t : Nat) : (s.setLink l x).tagPending n t = s.tagPending n t := rfl
@[simp] theorem State.freeSlotNumber_setLink : (s.setLink l x).freeSlotNumber = s.freeSlotNumber := rfl
@[simp] theorem State.loansEntry_setLink (n k : Nat) : (s.setLink l x).loansEntry n k = s.loansEntry n k := rfl
@[simp] theorem State.borrowHeader_setLink (n : Nat) (f : Frame) :
    (s.setLink l x).borrowHeader n f = s.borrowHeader n f := rfl
@[simp] theorem State.borrowRefusal_setLink (n bay : Nat) (r : Option Range) :
    (s.setLink l x).borrowRefusal n bay r = s.borrowRefusal n bay r := rfl
@[simp] theorem State.obstacle_setLink (bay : Nat) (kind : LoanKind) (cls : Cls) (r : Option Range) :
    (s.setLink l x).obstacle bay kind cls r = s.obstacle bay kind cls r := rfl

end

/-- An answer owes no grant scan. -/
theorem finish_answer {s : State} (h : s.Settled) (l : Nat) (f : Frame) (r : Record) :
    finish (s.answer l f r) = s.answer l f r := finish_of_settled h

/-- A reply into the one entry reserved for it, with which the handling ends. -/
theorem finish_reply_took {s : State} {l : Nat} (hs : s.Settled) (hp : (s.link l).presence = true) (f : Frame) (r : Record) :
    finish (reply l f r (s.took l 1)) = s.answer l f r := by
  rw [State.took, Link.reserving, reply_taken f r hp, finish_answer hs]

@[simp] theorem State.setLink_setLink (s : State) (l : Nat) (x y : Link) : (s.setLink l x).setLink l y = s.setLink l y := by
  simp [State.setLink, List.set_set]

/-- Placing a record without a reservation, where the queue has room. -/
theorem place_eq {s : State} {l : Nat} (h : s.hasRoom l = true) (o : OutRecord) :
    place l o s = s.setLink l ((s.link l).placing o) := by
  simp [place, h, State.modLink, Link.beginSending, Link.placing, isEmpty_append_singleton]

/-- Placing a reply into a reservation of the link. -/
theorem placeReserved_eq {s : State} {l : Nat} (hp : (s.link l).presence = true) (hr : 0 < (s.link l).reserved)
    (o : OutRecord) : placeReserved l o s = s.setLink l ((s.link l).replying o) := by
  simp [placeReserved, hp, hr, State.modLink, Link.beginSending, Link.replying, isEmpty_append_singleton]

theorem releaseReserved_eq (l k : Nat) (s : State) :
    releaseReserved l k s = s.setLink l { s.link l with reserved := (s.link l).reserved - k } := rfl

/-- A reply into one of the entries reserved for it. -/
theorem reply_took {s : State} {l k : Nat} (hp : (s.link l).presence = true) (hk : 1 ≤ k) (f : Frame) (r : Record) :
    reply l f r (s.took l k) = s.setLink l (((s.link l).reserving k).replying { tag := f.tag, record := r }) := by
  have e (x : Link) : (s.setLink l x).link l = x := State.link_setLink_self _ _ _ (link_lt_of_presence hp)
  rw [reply, State.took, placeReserved_eq (by rw [e]; exact hp) (by rw [e]; simp only [Link.reserving]; omega), e,
    State.setLink_setLink]

/-- A reply into one of the entries reserved for it, the surplus ones being released (R31). -/
theorem releaseReserved_reply_took {s : State} {l k : Nat} (hp : (s.link l).presence = true) (hk : 1 ≤ k) (f : Frame)
    (r : Record) : releaseReserved l (k - 1) (reply l f r (s.took l k)) = s.answer l f r := by
  have entries : (s.link l).reserved + k - 1 - (k - 1) = (s.link l).reserved := by omega
  rw [reply_took hp hk, releaseReserved_eq, State.link_setLink_self _ _ _ (link_lt_of_presence hp), State.setLink_setLink,
    State.answer]
  simp [Link.replying, Link.reserving, Link.placing, Link.taken, entries]

/-! ### HOLD (R24) -/

theorem exec_hold {s : State} {n : Nat} {f : Frame} (hn : isNode n = true) (h : s.CanTake n kindHold 1 f) :
    exec (.hold n) s = .next (finish (holdAct n f (s.took n 1))) := h.onNode (needs := oneEntry) hn _

/-- A loan of the table that is set is the one that the table then holds. -/
theorem State.loan_setLoan_self {s : State} {k : Nat} (l : Loan) (h : k < s.loans.length) : (s.setLoan k l).loan k = some l := by
  rw [State.loan, State.setLoan, State.slot_setSlot_self _ _ _ h]

/-- Settles O9: HOLD's checks in their order, and the answer by the loan's state. -/
theorem holdAnswers : Obligations.HoldAnswers := by
  intro s n f hn h
  have answered (r : Record) : finish (reply n f r (s.took n 1)) = s.answer n f r :=
    finish_reply_took h.settled h.presence f r
  refine ⟨fun tag => ?_, fun tag short => ?_, fun tag long unmatched => ?_, fun l tag long loan active => ?_,
    fun l tag long loan active limit slot => ?_, fun l tag long loan ended => ?_⟩
  · rw [exec_hold hn h, holdAct, if_pos tag, reject, answered, h.isKind]; rfl
  · rw [exec_hold hn h, holdAct, if_neg tag, if_pos short, reject, answered, h.isKind]
    simp [rejectLength, short.le]
  · have act : holdAct n f (s.took n 1) = reply n f (.held (loanIdAt f.body 0) .noLoan none none) (s.took n 1) := by
      simp [holdAct, tag, Nat.not_lt.mpr long, State.took, unmatched]
    rw [exec_hold hn h, act, answered]
  · have act : holdAct n f (s.took n 1) = reply n f (.held (loanIdAt f.body 0) .ok (some l.holdLimit) none)
        ((s.setLoan (loanIdAt f.body 0).slot { l with idle := 0 }).took n 1) := by
      simp only [holdAct, tag, Nat.not_lt.mpr long, State.took, State.matchLoan_setLink, loan, active, if_true, if_false]
      rfl
    rw [exec_hold hn h, act]
    exact congrArg _ (finish_reply_took (s := s.setLoan (loanIdAt f.body 0).slot { l with idle := 0 }) h.settled h.presence f _)
  · intro t
    have held : t.loan (loanIdAt f.body 0).slot = some { l with idle := 0 } :=
      State.loan_setLoan_self { l with idle := 0 } (s.slot_lt_of_loan _ l (loan_of_matchLoan loan))
    have fresh : Loan.expired { l with idle := 0 } = false := by simp [Loan.expired, limit.ne']
    show execIdleClockExpiry (loanIdAt f.body 0).slot t = _
    simp [execIdleClockExpiry, isSlot, slot, held, fresh]
  · have act : holdAct n f (s.took n 1) = reply n f (.held (loanIdAt f.body 0) .ended none l.endReason) (s.took n 1) := by
      simp [holdAct, tag, Nat.not_lt.mpr long, State.took, loan, ended]
    rw [exec_hold hn h, act, answered]

/-! ### QUERY (R25) -/

theorem loansEntry_eq_some {s : State} {n k : Nat} {e : LoansEntry} :
    s.loansEntry n k = some e ↔ ∃ l, s.loan k = some l ∧ l.borrower = n ∧ l.endReason ≠ some .linkLost ∧
      e = { id := { slot := k, issue := (s.slot k).issue }, askedBay := l.askedBay, placedBay := l.placedBay,
            viaTwin := l.viaTwin, kind := l.kind, cls := l.cls, range := l.range, state := l.state,
            endReason := l.endReason, holdLimit := l.holdLimit, idle := l.idle, commands := l.commands,
            notice := l.notice } := by
  unfold State.loansEntry
  cases s.loan k with
  | none => simp
  | some l => simp [and_assoc, eq_comm]

/-- An entry of LOANS names the slot that it lists. -/
theorem loansEntry_slot {s : State} {n k : Nat} {e : LoansEntry} (h : s.loansEntry n k = some e) : e.id.slot = k := by
  obtain ⟨l, -, -, -, rfl⟩ := loansEntry_eq_some.mp h
  rfl

/-- Settles O10: the entries of the slots in their order. -/
theorem queryListsLoans : Obligations.QueryListsLoans := by
  intro s n f hn h tag
  have act : queryAct n f (s.took n 1) =
      reply n f (.loans ((List.range Config.slots).filterMap (s.loansEntry n))) (s.took n 1) := if_neg tag
  refine ⟨(List.range Config.slots).filterMap (s.loansEntry n), ?_, ?_, fun e => ?_⟩
  · show onNode n (taking n kindQuery oneEntry (queryAct n)) s = _
    rw [h.onNode (needs := oneEntry) hn]
    exact congrArg _ ((congrArg finish act).trans (finish_reply_took h.settled h.presence f _))
  · refine List.Pairwise.filterMap _ (fun k m hkm a ha b hb => ?_) List.pairwise_lt_range
    rw [loansEntry_slot ha, loansEntry_slot hb]
    exact hkm
  · simp only [List.mem_filterMap, List.mem_range, loansEntry_eq_some]
    constructor
    · rintro ⟨k, hk, l, h⟩; exact ⟨k, l, hk, h⟩
    · rintro ⟨k, l, hk, h⟩; exact ⟨k, hk, l, h⟩

/-! ### BORROW's checks (R7, R9, R12, R31) -/

theorem borrowNeeds_pos (body : List Byte) : 1 ≤ borrowNeeds body := by
  unfold borrowNeeds; split <;> decide

theorem exec_borrow {s : State} {n : Nat} {f : Frame} (hn : isNode n = true)
    (h : s.CanTake n kindBorrow (borrowNeeds f.body) f) :
    exec (.borrow n) s = .next (finish (borrowAct n f (s.took n (borrowNeeds f.body)))) := h.onNode hn _

/-- A BORROW that is answered at once, its surplus entry released, changes nothing else. -/
theorem exec_borrow_answered {s : State} {n : Nat} {f : Frame} {r : Record} (hn : isNode n = true)
    (h : s.CanTake n kindBorrow (borrowNeeds f.body) f)
    (act : borrowAct n f (s.took n (borrowNeeds f.body)) =
      releaseReserved n (borrowNeeds f.body - 1) (reply n f r (s.took n (borrowNeeds f.body)))) :
    exec (.borrow n) s = .next (s.answer n f r) := by
  rw [exec_borrow hn h, act, releaseReserved_reply_took h.presence (borrowNeeds_pos _), finish_answer h.settled]

/-- R7: a request whose header fails is rejected. -/
theorem borrowAct_header {s : State} {n k : Nat} {f : Frame} {r : Reject} (h : s.borrowHeader n f = some r) :
    borrowAct n f (s.took n k) = releaseReserved n (borrowNeeds f.body - 1) (reject n f r (s.took n k)) := by
  simp only [borrowAct, State.took, State.borrowHeader_setLink, h]

/-- R7: a request whose body's form fails is rejected. -/
theorem borrowAct_form {s : State} {n k : Nat} {f : Frame} {r : Reject} (h : s.borrowHeader n f = none)
    (hf : borrowForm f.body = .error r) :
    borrowAct n f (s.took n k) = releaseReserved n (borrowNeeds f.body - 1) (reject n f r (s.took n k)) := by
  simp only [borrowAct, State.took, State.borrowHeader_setLink, h, hf]

/-- R7, R8: a request whose form passes is decided. -/
theorem borrowAct_ok {s : State} {n k : Nat} {f : Frame} {q : BorrowBody} (h : s.borrowHeader n f = none)
    (hf : borrowForm f.body = .ok q) : borrowAct n f (s.took n k) = decideBorrow n f q (s.took n k) := by
  simp only [borrowAct, State.took, State.borrowHeader_setLink, h, hf]

/-- Settles O13: the checks of R7, R9, R12 and R31 in their order. -/
theorem borrowAnsweredAtOnce : Obligations.BorrowAnsweredAtOnce := by
  intro s n f hn h
  have header (r : Reject) (hr : s.borrowHeader n f = some r) :
      exec (.borrow n) s = .next (s.answer n f (.reject r.reason r.place r.offset kindBorrow)) := by
    rw [exec_borrow_answered hn h (borrowAct_header hr), h.isKind]
  refine ⟨fun disabled => ?_, fun enabled tag => ?_, fun enabled tag dup => ?_, fun r passes form => ?_,
    fun q passes form => ⟨fun r refused => ?_, fun r passed obstacle wait => ?_, fun r passed obstacle wait full => ?_⟩⟩
  · exact header rejectDisabled (by simp [State.borrowHeader, disabled])
  · exact header rejectTag (by simp [State.borrowHeader, enabled, tag])
  · exact header rejectDup (by simp [State.borrowHeader, enabled, tag, dup])
  · rw [exec_borrow_answered hn h (borrowAct_form passes form), h.isKind]
  · refine exec_borrow_answered hn h ((borrowAct_ok passes form).trans ?_)
    simp only [decideBorrow, State.took, State.bay_setLink, State.borrowRefusal_setLink, refused]
  · refine exec_borrow_answered hn h ((borrowAct_ok passes form).trans ?_)
    simp [decideBorrow, State.took, passed, obstacle, wait]
  · refine exec_borrow_answered hn h ((borrowAct_ok passes form).trans ?_)
    simp [decideBorrow, State.took, passed, obstacle, wait, full]

end Sys2Proof.Machine
end

section
/-! PROOFS. A grantable BORROW becomes a loan (O11). -/

namespace Sys2Proof.Machine

/-! ### The lowest free slot, and the placement (R1, R11) -/

theorem freeSlotNumber_eq {s : State} {k : Nat} (used : ∀ j, j < k → (s.loan j).isSome = true) (hk : k < s.loans.length)
    (free : s.loan k = none) : s.freeSlotNumber = some k := by
  have at_ (j : Nat) (hj : j < s.loans.length) : s.loan j = s.loans[j].loan := by
    simp [State.loan, State.slot, List.getD_eq_getElem?_getD, hj]
  refine List.findIdx?_eq_some_iff_getElem.mpr ⟨hk, by rw [← at_ k hk, free]; rfl, fun j hj => ?_⟩
  have := used j hj
  rw [at_ j (hj.trans hk)] at this
  simpa [Option.isSome_iff_ne_none] using this

/-- R11: a placement is through a record with the asked bay as its source. -/
theorem placementTwin_source {s : State} {bay : Nat} {kind : LoanKind} {range : Option Range} {p : Nat × Nat}
    (h : s.placementTwin bay kind range = some p) : ∃ w, s.twin p.1 = some w ∧ w.source = bay := by
  unfold State.placementTwin at h
  split at h
  · obtain ⟨t, -, h⟩ := List.exists_of_findSome?_eq_some h
    cases ht : s.twin t with
    | none => simp [ht] at h
    | some w =>
      simp only [ht] at h
      split at h
      · rename_i c
        cases h
        exact ⟨w, ht, c.2.1⟩
      · cases h
  · cases h

/-- R3, R11: a loan placed for a request on a bay has that bay as its source bay. -/
theorem sourceBay_placed {s : State} {bay : Nat} {kind : LoanKind} {range : Option Range} {l : Loan}
    (hv : l.viaTwin = (s.placementTwin bay kind range).map Prod.fst)
    (hp : l.placedBay = ((s.placementTwin bay kind range).map Prod.snd).getD bay) : s.sourceBay l = bay := by
  cases h : s.placementTwin bay kind range with
  | none => simp [State.sourceBay, hv, hp, h]
  | some p =>
    obtain ⟨w, hw, rfl⟩ := placementTwin_source h
    simp [State.sourceBay, hv, h, hw]

/-- R50, R52: the hold limit of a loan from its hold base, its source bay, its kind and its range. -/
theorem holdLimit_eq {s : State} {l : Loan} {bay : Nat} (h : s.sourceBay l = bay) :
    s.holdLimit l = holdLimitOf l.holdBase (s.profile bay).holdMinimum
      (s.waits.countP fun e => !e.masked && e.bay == bay && overlaps e.range l.range && eitherKeep e.kind l.kind) := by
  subst h
  unfold State.holdLimit State.pressure State.conflictsLoan
  congr 1
  refine List.countP_congr fun e _ => ?_
  rw [Bool.beq_comm (a := e.bay)]
  simp only [Bool.and_assoc]

/-! ### Records that become STALE (R161) -/

theorem staleTwins_twins (b : Nat) (range : Option Range) (s : State) :
    (staleTwins b range s).twins = s.twins.map (Option.map (Twin.stale b range)) := by
  unfold staleTwins
  dsimp only
  split
  · exact Eq.symm ‹_›
  · rfl

/-- With no LIVE record that overlaps on the bay, none becomes STALE. -/
theorem staleTwins_none {b : Nat} {range : Option Range} {s : State}
    (h : ∀ w, some w ∈ s.twins → w.state = .live → w.source = b → overlaps range (some ⟨w.first, w.last⟩) = false) :
    staleTwins b range s = s := by
  refine if_pos ?_
  conv_rhs => rw [← List.map_id s.twins]
  refine List.map_congr_left fun t ht => ?_
  cases t with
  | none => rfl
  | some w =>
    have : Twin.stale b range w = w := if_neg fun c => by simp [h w ht c.1 c.2.1] at c
    simp [this]

theorem State.mem_twins_of_twin {s : State} {i : Nat} {w : Twin} (h : s.twin i = some w) : some w ∈ s.twins := by
  have lt := s.twin_lt_of_some i w h
  rw [State.twin, List.getD_eq_getElem _ _ lt] at h
  exact h ▸ List.getElem_mem lt

/-- R161: no record with source bay `b` whose range overlaps `range` is LIVE. -/
def State.noLiveOn (s : State) (b : Nat) (range : Option Range) : Prop :=
  ∀ w, some w ∈ s.twins → w.source = b → overlaps range (some ⟨w.first, w.last⟩) = true → w.state ≠ .live

/-- R161: a record that is LIVE after the change was the same record before it. -/
theorem Twin.stale_live {b : Nat} {range : Option Range} {w : Twin} (h : (w.stale b range).state = .live) :
    w.stale b range = w := by
  unfold Twin.stale at h ⊢
  split
  · rename_i c; rw [if_pos c] at h; cases h
  · rfl

/-- What is LIVE on a bay after records have become STALE was LIVE there before. -/
theorem noLiveOn_stale {s t : State} {b c : Nat} {range other : Option Range} (h : s.noLiveOn b range)
    (e : t.twins = s.twins.map (Option.map (Twin.stale c other))) : t.noLiveOn b range := by
  intro w hw hs ho live
  rw [e, List.mem_map] at hw
  obtain ⟨x, hx, hxw⟩ := hw
  obtain ⟨y, rfl, rfl⟩ := Option.map_eq_some_iff.mp hxw
  rw [Twin.stale_live live] at hs ho live
  exact h y hx hs ho live

/-- R161: a KEEP grant leaves no LIVE record that overlaps it on its bay. -/
theorem staleTwins_noLiveOn (b : Nat) (range : Option Range) (s : State) : (staleTwins b range s).noLiveOn b range := by
  intro w hw hs ho live
  rw [staleTwins_twins, List.mem_map] at hw
  obtain ⟨x, _, hxw⟩ := hw
  obtain ⟨y, rfl, rfl⟩ := Option.map_eq_some_iff.mp hxw
  have same := Twin.stale_live live
  rw [same] at hs ho live
  rw [Twin.stale, if_pos ⟨live, hs, ho⟩] at same
  rw [← same] at live
  cases live

theorem GrantMove.noLiveOn {s t : State} {b : Nat} {range : Option Range} (m : GrantMove s t) (h : s.noLiveOn b range) :
    t.noLiveOn b range := by
  have same (u : State) (e : u.twins = s.twins) : u.noLiveOn b range := by unfold State.noLiveOn; rwa [e]
  cases m with
  | ends m =>
    cases m with
    | place l o => refine same _ ?_; unfold Machine.place; split <;> rfl
    | placeReserved l o => refine same _ ?_; unfold Machine.placeReserved; split <;> rfl
    | giveBack ref n => refine same _ ?_; unfold Machine.giveBack; split <;> rfl
    | freeTwin i =>
      intro w hw
      exact h w ((List.mem_or_eq_of_mem_set hw).resolve_right (by simp))
    | _ => exact same _ rfl
  | stale c other => exact noLiveOn_stale h rfl
  | _ => exact same _ rfl

theorem GrantChain.noLiveOn {s t : State} {b : Nat} {range : Option Range} (c : GrantChain s t) (h : s.noLiveOn b range) :
    t.noLiveOn b range := by
  induction c with
  | refl => exact h
  | tail _ m ih => exact m.noLiveOn ih

/-! ### Grants -/

/-- R8, R10: a request that passes its checks and is grantable is made a loan. -/
theorem decideBorrow_grant {s : State} {n k : Nat} {f : Frame} {q : BorrowBody}
    (hr : s.borrowRefusal n q.bay (clampRange (s.bay q.bay).capacity q.range) = none)
    (ho : s.obstacle q.bay q.kind (clampClass (s.nodeEntry n).classCap q.cls) (clampRange (s.bay q.bay).capacity q.range) = none)
    (hk : s.freeSlotNumber = some k) :
    decideBorrow n f q s = releaseReserved n (borrowNeeds f.body - 1)
      (makeLoan k n f.tag q.bay q.kind (clampClass (s.nodeEntry n).classCap q.cls)
        (clampRange (s.bay q.bay).capacity q.range) s) := by
  simp only [decideBorrow, hr, ho, hk]

/-- R12: with no obstacle a slot is free. -/
theorem freeSlot_of_obstacle {s : State} {bay : Nat} {kind : LoanKind} {cls : Cls} {range : Option Range}
    (h : s.obstacle bay kind cls range = none) : ∃ k, s.freeSlotNumber = some k := by
  unfold State.obstacle at h
  cases hf : s.freeSlotNumber with
  | some k => exact ⟨k, rfl⟩
  | none => simp [hf] at h; split_ifs at h

/-- R3, R10, R11, R36: the loan that a grant makes. -/
def State.newLoan (s : State) (n bay : Nat) (kind : LoanKind) (cls : Cls) (range : Option Range) : Loan :=
  { borrower := n, askedBay := bay, placedBay := ((s.placementTwin bay kind range).map Prod.snd).getD bay
    viaTwin := (s.placementTwin bay kind range).map Prod.fst, kind := kind, cls := cls, range := range, state := .active
    endReason := none, holdBase := (s.nodeEntry n).holdBase
    holdLimit := holdLimitOf (s.nodeEntry n).holdBase (s.profile bay).holdMinimum
      (s.waits.countP fun e => !e.masked && e.bay == bay && overlaps e.range range && eitherKeep e.kind kind)
    idle := 0, commands := 0, notice := none, returnTag := none, move := none }

/-- R1: the slot that a grant fills, its issue advanced. -/
def State.newSlot (s : State) (k : Nat) (l : Loan) : Slot := { issue := ((s.slot k).issue + 1) % 256, loan := some l }

/-- R13: the GRANTED of a loan that a grant makes. -/
def State.grantedOf (s : State) (k : Nat) (l : Loan) : Record :=
  .granted { slot := k, issue := ((s.slot k).issue + 1) % 256 } l.placedBay l.kind l.cls l.range l.holdLimit

/-- R3, R50, R52: the hold limit of the loan that a grant makes is the one that its fields give. -/
theorem holdLimit_newLoan (s : State) (n bay : Nat) (kind : LoanKind) (cls : Cls) (range : Option Range) :
    s.holdLimit { s.newLoan n bay kind cls range with holdLimit := 0 } = (s.newLoan n bay kind cls range).holdLimit :=
  holdLimit_eq (sourceBay_placed (kind := kind) (range := range) rfl rfl)

/-- R1, R3, R10, R11, R13, R161: what a grant comes to. -/
theorem makeLoan_eq (k n tag bay : Nat) (kind : LoanKind) (cls : Cls) (range : Option Range) (s : State) :
    makeLoan k n tag bay kind cls range s =
      let l := s.newLoan n bay kind cls range
      let t := placeReserved n { tag := tag, record := s.grantedOf k l } (s.setSlot k (s.newSlot k l))
      if kind = .keep then staleTwins bay range t else t := by
  have limit := holdLimit_newLoan s n bay kind cls range
  simp only [State.newLoan] at limit
  simp only [makeLoan, limit]
  rfl

/-- Settles O11: the loan of `makeLoan_eq`; R161 by `staleTwins_noLiveOn`, kept by the scan that follows. -/
theorem borrowGranted : Obligations.BorrowGranted := by
  constructor
  · intro s n f q k hn h passes form cls range passed clear used hk free stale issue placement limit loan
    have act := (borrowAct_ok (k := borrowNeeds f.body) passes form).trans
      (decideBorrow_grant (s := s.took n (borrowNeeds f.body)) passed clear (freeSlotNumber_eq used hk free))
    have made : makeLoan k n f.tag q.bay q.kind cls range (s.took n (borrowNeeds f.body)) =
        reply n f (s.grantedOf k loan) ((s.setSlot k (s.newSlot k loan)).took n (borrowNeeds f.body)) := by
      rw [makeLoan_eq]
      dsimp only
      split
      · rename_i keep
        refine staleTwins_none fun w hw => stale keep w ?_
        unfold placeReserved at hw
        split at hw <;> exact hw
      · rfl
    rw [exec_borrow hn h, act]
    refine congrArg _ ((congrArg (finish ∘ releaseReserved n (borrowNeeds f.body - 1)) made).trans ?_)
    have answered := releaseReserved_reply_took (s := s.setSlot k (s.newSlot k loan)) h.presence (borrowNeeds_pos f.body) f
      (s.grantedOf k loan)
    exact (congrArg finish answered).trans (finish_answer (s := s.setSlot k (s.newSlot k loan)) h.settled n f _)
  · intro s n f q hn h passes form keep range passed clear
    obtain ⟨k, number⟩ := freeSlot_of_obstacle clear
    have act := (borrowAct_ok (k := borrowNeeds f.body) passes form).trans
      (decideBorrow_grant (s := s.took n (borrowNeeds f.body)) passed clear number)
    have made : (makeLoan k n f.tag q.bay q.kind (clampClass (s.nodeEntry n).classCap q.cls) range
        (s.took n (borrowNeeds f.body))).noLiveOn q.bay range := by
      rw [makeLoan_eq]
      dsimp only
      rw [if_pos keep]
      exact staleTwins_noLiveOn _ _ _
    refine ⟨_, exec_borrow hn h, fun i w hw hs ho => ?_⟩
    rw [act] at hw
    have released : (releaseReserved n (borrowNeeds f.body - 1) (makeLoan k n f.tag q.bay q.kind
        (clampClass (s.nodeEntry n).classCap q.cls) range (s.took n (borrowNeeds f.body)))).noLiveOn q.bay range := made
    exact GrantChain.noLiveOn (finish_chain _) released w (State.mem_twins_of_twin hw) hs ho

end Sys2Proof.Machine
end

section
/-! PROOFS. A BORROW that may wait becomes a wait entry (O12). -/

namespace Sys2Proof.Machine

/-- R31: a BORROW that needs two entries allows waiting. -/
theorem waitAllowed_of_needs {body : List Byte} {q : BorrowBody} (hf : borrowForm body = .ok q) (h : borrowNeeds body = 2) :
    q.waitAllowed = true := by
  have code : field body 12 1 = 1 := by
    by_contra hc
    simp [borrowNeeds, hc] at h
  have read : coded 12 (boolOfCode (field body 12 1)) = .ok true := by rw [code]; rfl
  unfold borrowForm at hf
  rw [read] at hf
  simp only [bind, Except.bind] at hf
  split at hf
  · cases hf
  split at hf
  · cases hf
  split at hf
  · cases hf
  split at hf
  · cases hf
  split at hf
  · cases hf
  cases hf
  rfl

/-! ### Doing something for each slot -/

/-- Doing for each slot what changes nothing. -/
theorem eachSlot_same {s : State} {f : Nat → State → State} (h : ∀ k, f k s = s) : s.eachSlot f = s := by
  unfold State.eachSlot
  generalize List.range Config.slots = ks
  induction ks with
  | nil => rfl
  | cons k ks ih => rw [List.foldl_cons, h, ih]

/-- Doing for each slot what changes that slot alone, by a function of what the slot holds. -/
theorem eachSlot_map {s : State} {f : Nat → State → State} (g : Slot → Slot) (hs : s.loans.length = Config.slots)
    (h : ∀ k (loans : List Slot), loans.length = s.loans.length → (hk : k < s.loans.length) → loans[k]? = some s.loans[k] →
      f k { s with loans := loans } = { s with loans := loans.set k (g s.loans[k]) }) :
    s.eachSlot f = { s with loans := s.loans.map g } := by
  have upTo (m : Nat) (hm : m ≤ s.loans.length) : (List.range m).foldl (fun s k => f k s) s =
      { s with loans := (s.loans.take m).map g ++ s.loans.drop m } := by
    induction m with
    | zero => simp
    | succ m ih =>
      have size : ((s.loans.take m).map g).length = m := by simp; omega
      have rest : s.loans.drop m = s.loans[m] :: s.loans.drop (m + 1) := List.drop_eq_getElem_cons hm
      rw [List.range_succ, List.foldl_append, ih (Nat.le_of_lt hm), List.foldl_cons, List.foldl_nil,
        h m _ (by simp; omega) hm (by rw [rest, List.getElem?_append_right size.le, size]; simp)]
      congr 1
      rw [rest, List.set_append_right _ _ size.le, size, Nat.sub_self, List.set_cons_zero, List.take_add_one,
        List.getElem?_eq_getElem hm, List.map_append, List.append_assoc]
      rfl
  rw [State.eachSlot, ← hs, upTo _ (Nat.le_refl _), List.take_length, List.drop_length, List.append_nil]

/-! ### Recomputes (R51, R53) -/

/-- A loan in the table that does not conflict, where the table does not. -/
theorem conflictsLoan_of_table {s : State} {bay k : Nat} {kind : LoanKind} {range : Option Range} {l : Loan}
    (h : s.conflictsTable bay kind range = false) (hl : s.loan k = some l) : s.conflictsLoan bay kind range l = false := by
  have lt := s.slot_lt_of_loan k l hl
  have := List.any_eq_false.mp h _ (List.getElem_mem lt)
  rw [State.loan, State.slot, List.getD_eq_getElem _ _ lt] at hl
  simpa [hl] using this

/-- A masked entry, and one that conflicts with no loan, causes no recompute. -/
theorem recomputeAgainst_same {s : State} {e : WaitEntry}
    (h : e.masked = true ∨ s.conflictsTable e.bay e.kind e.range = false) : recomputeAgainst e s = s := by
  unfold recomputeAgainst
  split
  · rfl
  · rename_i unmasked
    have free := h.resolve_left unmasked
    refine eachSlot_same fun k => ?_
    split
    · rename_i l hl
      rw [if_neg (by simp [conflictsLoan_of_table free hl])]
    · rfl

/-- R51: a recompute of every loan that an unmasked entry conflicts with, when none of them ends. -/
theorem recomputeAgainst_map {s : State} {e : WaitEntry} (hs : s.loans.length = Config.slots) (hm : e.masked = false)
    (h : ∀ k l, s.loan k = some l → s.conflictsLoan e.bay e.kind e.range l = true → l.state = .active → l.idle < s.holdLimit l) :
    recomputeAgainst e s = { s with loans := s.loans.map (fun x => { x with loan := x.loan.map (fun l =>
      if s.conflictsLoan e.bay e.kind e.range l then { l with holdLimit := s.holdLimit l } else l) }) } := by
  unfold recomputeAgainst
  rw [if_neg (by simp [hm])]
  refine eachSlot_map _ hs fun k loans size hk same => ?_
  have slot : ({ s with loans := loans } : State).slot k = s.loans[k] := by
    simp [State.slot, List.getD_eq_getElem?_getD, same]
  have same : loans.set k s.loans[k] = loans := by
    obtain ⟨_, e⟩ := List.getElem?_eq_some_iff.mp same
    rw [← e, List.set_getElem_self]
  have loan : ({ s with loans := loans } : State).loan k = s.loans[k].loan := by rw [State.loan, slot]
  have before : s.loan k = s.loans[k].loan := by rw [State.loan, State.slot, List.getD_eq_getElem _ _ hk]
  have reads (l : Loan) : ({ s with loans := loans } : State).holdLimit l = s.holdLimit l ∧
      ({ s with loans := loans } : State).conflictsLoan e.bay e.kind e.range l = s.conflictsLoan e.bay e.kind e.range l :=
    ⟨rfl, rfl⟩
  rw [loan]
  cases hl : s.loans[k].loan with
  | none =>
    have : ({ s.loans[k] with loan := none } : Slot) = s.loans[k] := by rw [← hl]
    simp only [Option.map_none, this, same]
  | some l =>
    simp only [Option.map_some, (reads l).2]
    split
    · rename_i c
      have stays : ¬(l.state = .active ∧ s.holdLimit l ≤ l.idle) := fun ⟨active, le⟩ =>
        Nat.not_lt.mpr le (h k l (before.trans hl) c active)
      simp only [recompute, loan, hl, (reads l).1, if_neg stays, State.setLoan, slot]
      rfl
    · have : ({ s.loans[k] with loan := some l } : Slot) = s.loans[k] := by rw [← hl]
      rw [this, same]

/-! ### Joining the wait list (R12, R27, R28, R32, R33) -/

/-- R9: a request that passes the refusal checks asks for a bay that a request can wait for. -/
theorem awaitable_of_borrowRefusal {s : State} {n bay : Nat} {range : Option Range}
    (h : s.borrowRefusal n bay range = none) :
    (s.bay bay).state.awaitable = true ∧ s.isTwinTarget bay = false ∧ rangeOutside (s.bay bay).capacity range = false := by
  unfold State.borrowRefusal at h
  dsimp only at h
  split_ifs at h with noBay draining target outside limit
  refine ⟨?_, by simpa using target, by simpa using outside⟩
  cases e : (s.bay bay).state <;> simp_all [BayState.awaitable]

/-- R12: a request held back by ORDER is unmasked and conflicts with no loan. -/
theorem of_obstacle_order {s : State} {bay : Nat} {kind : LoanKind} {cls : Cls} {range : Option Range}
    (h : s.obstacle bay kind cls range = some .order) :
    masks s.settings.level cls = false ∧ s.conflictsTable bay kind range = false := by
  have unmasked : masks s.settings.level cls = false := by
    by_contra c
    rw [Bool.not_eq_false] at c
    simp only [State.obstacle, c, if_true] at h
    split_ifs at h <;> cases h
  refine ⟨unmasked, ?_⟩
  by_contra c
  rw [Bool.not_eq_false] at c
  simp only [State.obstacle, c, unmasked, Bool.false_eq_true, if_true, if_false] at h
  split_ifs at h <;> cases h

theorem mem_takeWhile_of_rank {l : List WaitEntry} {x : WaitEntry} {c : Nat}
    (h : l.Pairwise fun a b => a.cls.rank ≤ b.cls.rank) (hx : x ∈ l) (hr : x.cls.rank ≤ c) :
    x ∈ l.takeWhile fun y => y.cls.rank ≤ c := by
  rw [← List.takeWhile_append_dropWhile (p := fun y => decide (y.cls.rank ≤ c)) (l := l)] at hx
  refine (List.mem_append.mp hx).resolve_right fun hd => ?_
  exact Nat.not_lt.mpr hr (rank_lt_of_mem_dropWhile h hd)

/-- R33, R34: a new entry that stands behind one in its way, among entries that stay, is passed over with them. -/
theorem scanFrom_insertWait {s : State} {e : WaitEntry} {ws : List WaitEntry} (others : ∀ x ∈ ws, x.stays s)
    (ha : (s.bay e.bay).state.awaitable = true) (ht : s.isTwinTarget e.bay = false)
    (hr : rangeOutside (s.bay e.bay).capacity e.range = false)
    (behind : ∃ x ∈ ws.takeWhile (fun y => y.cls.rank ≤ e.cls.rank), x.masked = false ∧
      conflictsEntry e.bay e.kind e.range x = true) : scanFrom [] (insertWait e ws) s = s := by
  obtain ⟨x, hx, hm, hc⟩ := behind
  have front := scanFrom_stays (s := s) (ws.takeWhile fun y => y.cls.rank ≤ e.cls.rank)
    fun y hy => others y ((List.takeWhile_sublist _).subset hy)
  have back := scanFrom_stays (s := s) (ws.dropWhile fun y => y.cls.rank ≤ e.cls.rank)
    fun y hy => others y ((List.dropWhile_sublist _).subset hy)
  unfold insertWait
  rw [front, List.nil_append, scanFrom_skip _ ha ht hr (grantable_of_earlier hx hm hc)]
  have := back (ws.takeWhile (fun y => y.cls.rank ≤ e.cls.rank) ++ [e]) []
  rw [List.append_nil] at this
  rw [this]
  rfl

/-- R12, R31: a request that passes its checks, may wait, and finds room, is queued. -/
theorem decideBorrow_queue {s : State} {n : Nat} {f : Frame} {q : BorrowBody} {reason : NodeReason}
    (hr : s.borrowRefusal n q.bay (clampRange (s.bay q.bay).capacity q.range) = none)
    (ho : s.obstacle q.bay q.kind (clampClass (s.nodeEntry n).classCap q.cls) (clampRange (s.bay q.bay).capacity q.range) =
      some reason)
    (hw : q.waitAllowed = true) (hl : s.waits.length < Config.waitEntries) :
    decideBorrow n f q s = queueRequest n f q (clampClass (s.nodeEntry n).classCap q.cls)
      (clampRange (s.bay q.bay).capacity q.range) reason s := by
  simp [decideBorrow, hr, ho, hw, Nat.not_le.mpr hl]

theorem GrantChain.arrival {s t : State} (c : GrantChain s t) : t.arrival = s.arrival := by
  induction c with
  | refl => rfl
  | tail _ m ih =>
    refine Eq.trans ?_ ih
    cases m with
    | ends m => exact m.frame.arrival
    | _ => rfl

/-- Settles O12: the entry joins the list, its recomputes follow, and with reason ORDER a scan that passes over every entry. -/
theorem borrowQueued : Obligations.BorrowQueued := by
  intro s n f q reason hn h needs passes form cls range passed obstacle room e queued t
  have wait := waitAllowed_of_needs form needs
  have joined : exec (.borrow n) s = .next (finish (if reason = .order then (recomputeAgainst e t).oweScan
      else recomputeAgainst e t)) := by
    rw [exec_borrow hn (needs.symm ▸ h), needs, borrowAct_ok passes form,
      decideBorrow_queue (s := s.took n 2) passed obstacle wait room]
    have placed := reply_took (s := { s with waits := insertWait e s.waits, arrival := (s.arrival + 1) % 65536 })
      h.presence (by decide : 1 ≤ 2) f (.queued cls reason)
    exact congrArg (fun u : State => Host.Outcome.next (finish (if reason = .order then (recomputeAgainst e u).oweScan
      else recomputeAgainst e u))) placed
  refine ⟨fun other quiet => ?_, fun other unmasked size short => ?_, fun order sorted behind others => ?_, ?_⟩
  · rw [joined, if_neg other, recomputeAgainst_same (s := t) quiet, finish_of_settled (s := t) h.settled]
  · rw [joined, if_neg other, recomputeAgainst_map (s := t) size unmasked short]
    exact congrArg _ (finish_of_settled h.settled)
  · obtain ⟨unmasked, free⟩ := of_obstacle_order (order ▸ obstacle)
    obtain ⟨awaitable, target, inside⟩ := awaitable_of_borrowRefusal passed
    obtain ⟨x, hx, hm, hc, hr⟩ := behind
    have stays (y : WaitEntry) (hy : y ∈ s.waits) : y.stays t.oweScan := (others y hy).imp id fun ⟨ha, ht, hr, hc⟩ =>
      ⟨ha, ht, hr, grantable_of_conflict (s := t.oweScan) hc⟩
    have scanned : scanFrom [] (insertWait e s.waits) t.oweScan = t.oweScan :=
      scanFrom_insertWait stays awaitable target inside ⟨x, mem_takeWhile_of_rank sorted.2 hx hr, hm, hc⟩
    have settled : ({ t.oweScan with scanDue := false } : State) = t := by
      show ({ t with scanDue := false } : State) = t
      rw [← show t.scanDue = false from h.settled]
    rw [joined, if_pos order, recomputeAgainst_same (s := t) (e := e) (.inr free)]
    exact congrArg _ ((congrArg (fun u : State => { u with scanDue := false }) scanned).trans settled)
  · have chain (u : State) (hu : GrantChain t u) : (finish u).arrival = (s.arrival + 1) % 65536 ∧
        (finish u).HasPlaced n queued := by
      have all := hu.trans (finish_chain u)
      refine ⟨GrantChain.arrival all, (GrantChain.grows all).hasPlaced ?_⟩
      rw [State.HasPlaced, show t.link n = _ from State.link_setLink_self s n _ h.lt]
      exact List.mem_append_right _ (List.mem_singleton.mpr rfl)
    refine ⟨_, joined, chain _ ?_⟩
    split
    · exact (recomputeAgainst_chain e t).grant.tail (.ends (.owe _))
    · exact (recomputeAgainst_chain e t).grant

end Sys2Proof.Machine
end

section
/-! PROOFS. What the ends of commands and of loans come to, one equation for each shared operation. -/

namespace Sys2Proof.Machine

/-! ### The end of a handling -/

/-- With no wait entry the grant scan that a handling owes grants nothing. -/
theorem finish_oweScan {s : State} (hw : s.waits = []) (hs : s.Settled) : finish s.oweScan = s := by
  have scan : scanFrom [] s.oweScan.waits s.oweScan = s.oweScan := by
    rw [show s.oweScan.waits = [] from hw]
    rfl
  have clear : ({ s.oweScan with scanDue := false } : State) = s := by
    show ({ s with scanDue := false } : State) = s
    rw [← show s.scanDue = false from hs]
  rw [finish, if_pos (show s.oweScan.scanDue = true from rfl), grantScan, scan, clear]

/-- Doing for each slot what changes the state at one slot alone. -/
theorem eachSlot_only {s t : State} {f : Nat → State → State} {k : Nat} (hk : k < Config.slots) (before : ∀ j < k, f j s = s)
    (here : f k s = t) (after : ∀ j, k < j → j < Config.slots → f j t = t) : s.eachSlot f = t := by
  have stay (u : State) (js : List Nat) (h : ∀ j ∈ js, f j u = u) : js.foldl (fun s j => f j s) u = u := by
    induction js with
    | nil => rfl
    | cons j js ih => rw [List.foldl_cons, h j List.mem_cons_self, ih fun i hi => h i (List.mem_cons_of_mem j hi)]
  obtain ⟨m, size⟩ : ∃ m, Config.slots = k + 1 + m := ⟨_, (Nat.add_sub_cancel' hk).symm⟩
  rw [State.eachSlot, size, List.range_add, List.range_succ, List.append_assoc, List.foldl_append,
    stay s _ fun j hj => before j (List.mem_range.mp hj), List.singleton_append, List.foldl_cons, here]
  refine stay t _ fun j hj => ?_
  obtain ⟨i, hi, rfl⟩ := List.mem_map.mp hj
  have := List.mem_range.mp hi
  exact after _ (by omega) (by omega)

/-! ### Slots and pending notices (R1, R18, R19) -/

/-- A slot of a loan placed through no twin is freed. -/
theorem freeSlot_eq {s : State} {k : Nat} {l : Loan} (h : s.loan k = some l) (hv : l.viaTwin = none) :
    freeSlot k s = (s.setSlot k { issue := (s.slot k).issue, loan := none }).oweScan := by
  simp only [freeSlot, h, hv]

theorem placeable_iff {s : State} {n : Nat} : s.roomForNotice n = true ↔ s.placeable n := by
  simp [State.roomForNotice, State.placeable]

theorem State.placeable.presence {s : State} {n : Nat} (h : s.placeable n) : (s.link n).presence = true := by
  have := h.1
  simp only [State.hasRoom, Bool.and_eq_true] at this
  exact this.1

theorem noticeOf_none {s : State} {n k : Nat} (h : ∀ l, s.loan k = some l → l.borrower = n → l.notice = none) :
    s.noticeOf n k = false := by
  unfold State.noticeOf
  cases e : s.loan k with
  | none => rfl
  | some l =>
    by_cases b : l.borrower = n
    · simp [Loan.noticeDue, h l e b]
    · simp [b]

/-- The pending LOAN ENDED of a loan placed through no twin is placed, and its slot freed. -/
theorem placeLoanNotice_ended {s : State} {k : Nat} {l : Loan} (h : s.loan k = some l) (hn : l.notice = some .loanEnded)
    (hv : l.viaTwin = none) (hr : s.hasRoom l.borrower = true) :
    placeLoanNotice k s = ((s.setSlot k { issue := (s.slot k).issue, loan := none }).setLink l.borrower
      ((s.link l.borrower).placing
        { tag := 0, record := .loanEnded { slot := k, issue := (s.slot k).issue } l.endReason })).oweScan := by
  simp only [placeLoanNotice, h, hn, place_eq hr]
  rw [freeSlot_eq (l := l) (by simpa using h) hv]
  rfl

/-- A pending LOAN MOVED is placed, and cleared. -/
theorem placeLoanNotice_moved {s : State} {k : Nat} {l : Loan} (h : s.loan k = some l) (hn : l.notice = some .loanMoved)
    (hr : s.hasRoom l.borrower = true) :
    placeLoanNotice k s = (s.setLoan k { l with notice := none }).setLink l.borrower
      ((s.link l.borrower).placing
        { tag := 0, record := .loanMoved { slot := k, issue := (s.slot k).issue } l.placedBay }) := by
  simp only [placeLoanNotice, h, hn, place_eq hr]
  rfl

/-- With no room on the node's queue every notice of the node stays pending. -/
theorem offerLoanNotices_noRoom {s : State} {n : Nat} (h : ¬s.placeable n) : offerLoanNotices n s = s :=
  eachSlot_same fun k => if_neg fun c => by
    rw [Bool.and_eq_true] at c
    exact h (placeable_iff.mp c.1)

/-- With room on the node's queue, the one due notice of the node is placed. -/
theorem offerLoanNotices_one {s t : State} {n k : Nat} (hk : k < Config.slots) (hr : s.placeable n)
    (due : s.noticeOf n k = true) (here : placeLoanNotice k s = t)
    (before : ∀ j < k, s.noticeOf n j = false) (after : ∀ j, k < j → j < Config.slots → t.noticeOf n j = false) :
    offerLoanNotices n s = t := by
  refine eachSlot_only hk (fun j hj => ?_) ?_ fun j hj hj' => ?_
  · simp [before j hj]
  · simp [placeable_iff.mpr hr, due, here]
  · simp [after j hj hj']

/-- LOAN_NOTICE_PLACE places the lowest slot's due notice. -/
theorem firstNotice_eq {s : State} {n k : Nat} (hk : k < Config.slots) (due : s.noticeOf n k = true)
    (before : ∀ j < k, s.noticeOf n j = false) : s.firstNotice n = some k :=
  List.find?_range_eq_some.mpr ⟨due, List.mem_range.mpr hk, fun j hj => by simp [before j hj]⟩

/-- Settles O17: the lowest due notice is placed (`placeLoanNotice_moved`, `placeLoanNotice_ended`); with none due, none is. -/
theorem loanNoticePlaced : Obligations.LoanNoticePlaced := by
  constructor
  · intro s n k l settled hn hk loan borrower room lower
    have below (j : Nat) (hj : j < k) : s.noticeOf n j = false := noticeOf_none fun x => lower j x hj
    have placed (due : l.noticeDue = true) : exec (.loanNoticePlace n) s = .next (finish (placeLoanNotice k s)) := by
      have first : s.firstNotice n = some k := firstNotice_eq hk (by simp [State.noticeOf, loan, borrower, due]) below
      show execLoanNoticePlace n s = _
      rw [execLoanNoticePlace, onNode_eq hn, if_pos (placeable_iff.mpr room), first]
    subst borrower
    refine ⟨fun moved active => ?_, fun ended via waits => ?_⟩
    · rw [placed (by simp [Loan.noticeDue, moved, active]), placeLoanNotice_moved loan moved room.1]
      exact congrArg _ (finish_of_settled settled)
    · rw [placed (by simp [Loan.noticeDue, ended]), placeLoanNotice_ended loan ended via room.1]
      exact congrArg _ (finish_oweScan waits settled)
  · intro s n hn idle
    have first : s.firstNotice n = none := by
      refine List.find?_eq_none.mpr fun k _ => ?_
      unfold State.noticeOf
      cases loan : s.loan k with
      | none => simp
      | some l =>
        by_cases borrower : l.borrower = n
        · rcases idle k l loan borrower with none | ⟨moved, ended⟩
          · simp [Loan.noticeDue, none]
          · simp [Loan.noticeDue, moved, ended]
        · simp [borrower]
    show execLoanNoticePlace n s = _
    rw [execLoanNoticePlace, onNode_eq hn, first]
    simp

end Sys2Proof.Machine
end

section
/-! PROOFS. What freeing a command record, its final reply, and a record sent come to (O4). -/

namespace Sys2Proof.Machine

/-! ### Changing one record -/

theorem modifyFirst_id {α : Type} {p : α → Bool} {f : α → α} {as : List α} (h : ∀ a, as.find? p = some a → f a = a) :
    modifyFirst p f as = as := by
  induction as with
  | nil => rfl
  | cons a as ih =>
    by_cases hp : p a = true
    · simp [modifyFirst, hp, h a (by simp [hp])]
    · rw [modifyFirst, if_neg hp, ih fun b hb => h b (by simp [hp, hb])]

theorem modifyFirst_modifyFirst {α : Type} {p : α → Bool} {f g : α → α} (hf : ∀ a, p a = true → p (f a) = true) (as : List α) :
    modifyFirst p g (modifyFirst p f as) = modifyFirst p (fun a => g (f a)) as := by
  induction as with
  | nil => rfl
  | cons a as ih =>
    by_cases hp : p a = true
    · simp [modifyFirst, hp, hf a hp]
    · simp [modifyFirst, hp, ih]

theorem eraseP_modifyFirst {α : Type} {p : α → Bool} {f : α → α} (hf : ∀ a, p a = true → p (f a) = true) (as : List α) :
    (modifyFirst p f as).eraseP p = as.eraseP p := by
  induction as with
  | nil => rfl
  | cons a as ih =>
    by_cases hp : p a = true
    · simp [modifyFirst, hp, hf a hp]
    · simp [modifyFirst, hp, ih]

/-- Changing a record as it stands. -/
theorem State.modRecord_same {s : State} {ref : CommandRef} {f : Command → Command} (h : ∀ r, s.record ref = some r → f r = r) :
    s.modRecord ref f = s := by
  rw [State.modRecord, modifyFirst_id h]

/-- Two changes of one record, the first of which keeps its name. -/
theorem State.modRecord_modRecord (s : State) (ref : CommandRef) {f : Command → Command} (hf : ∀ r, (f r).ref = r.ref)
    (g : Command → Command) : (s.modRecord ref f).modRecord ref g = s.modRecord ref fun r => g (f r) := by
  simp only [State.modRecord]
  rw [modifyFirst_modifyFirst fun r h => by simpa [hf r] using h]

/-- A record after a change that keeps its name. -/
theorem State.record_modRecord_some {s : State} {ref : CommandRef} {r : Command} {f : Command → Command}
    (h : s.record ref = some r) (hf : ∀ r, (f r).ref = r.ref) : (s.modRecord ref f).record ref = some (f r) := by
  rw [State.record_modRecord s ref f hf, h]
  rfl

/-- A record that is erased after a change that keeps its name. -/
theorem State.eraseP_modRecord (s : State) (ref : CommandRef) {f : Command → Command} (hf : ∀ r, (f r).ref = r.ref) :
    (s.modRecord ref f).records.eraseP (fun x => x.ref == ref) = s.records.eraseP fun x => x.ref == ref :=
  eraseP_modifyFirst (fun r h => by simpa [hf r] using h) _

/-! ### Freeing a record (R4, R46, R61, R79) -/

/-- A command record that has returned `n` of its buffers. -/
def Command.returned (n : Nat) (r : Command) : Command := { r with held := r.held - n }

theorem giveBack_eq {s : State} {ref : CommandRef} {r : Command} (h : s.record ref = some r) (n : Nat) (hn : n ≤ r.held) :
    giveBack ref n s = { s.modRecord ref (Command.returned n) with poolFree := s.poolFree + n } := by
  simp only [giveBack, h, Nat.min_eq_left hn]
  rfl

/-- A command record under a loan is freed, and its loan's end may follow. -/
theorem freeRecord_eq {s : State} {ref : CommandRef} {r : Command} {l : Loan} (h : s.record ref = some r)
    (hl : s.loan r.loan.slot = some l) : freeRecord ref s = endIfIdle r.loan.slot (s.withoutRecord r l) := by
  obtain rfl := State.ref_of_record h
  have freed : ({ giveBack r.ref r.held s with
      records := (giveBack r.ref r.held s).records.eraseP fun x => x.ref == r.ref } : State) =
      { s with records := s.records.eraseP fun x => x.ref == r.ref, poolFree := s.poolFree + r.held } := by
    rw [giveBack_eq h r.held (Nat.le_refl _)]
    dsimp only
    rw [State.eraseP_modRecord s r.ref (f := Command.returned r.held) fun _ => rfl]
    rfl
  have loan : ({ s with records := s.records.eraseP fun x => x.ref == r.ref, poolFree := s.poolFree + r.held } : State).loan
      r.loan.slot = some l := hl
  simp only [freeRecord, h]
  rw [freed]
  simp only [loan]
  rfl

theorem freeIfDone_stays {s : State} {ref : CommandRef} {r : Command} (h : s.record ref = some r)
    (hr : r.replied = false ∨ r.held ≠ 0) : freeIfDone ref s = s := by
  simp only [freeIfDone, h]
  refine if_neg ?_
  rintro ⟨replied, held⟩
  rcases hr with e | e
  · simp [e] at replied
  · exact e held

theorem freeIfDone_goes {s : State} {ref : CommandRef} {r : Command} (h : s.record ref = some r) (hr : r.replied = true)
    (hh : r.held = 0) : freeIfDone ref s = freeRecord ref s := by
  simp only [freeIfDone, h, hr, hh, and_self, if_true]

/-- The record of a command that has been changed, its name, loan and buffers standing, is freed as it would have been. -/
theorem State.withoutRecord_modRecord (s : State) (r : Command) (l : Loan) {f : Command → Command} (hf : ∀ r, (f r).ref = r.ref)
    (hh : (f r).held = r.held) (hl : (f r).loan = r.loan) :
    (s.modRecord r.ref f).withoutRecord (f r) l = s.withoutRecord r l := by
  simp only [State.withoutRecord, hf, hh, hl, State.eraseP_modRecord s r.ref hf]
  rfl

/-- A record that has returned some of its buffers is freed as it would have been. -/
theorem State.withoutRecord_giveBack {s : State} {r : Command} {n : Nat} (h : s.record r.ref = some r) (l : Loan)
    (hn : n ≤ r.held) : (giveBack r.ref n s).withoutRecord (r.returned n) l = s.withoutRecord r l := by
  have erased := State.eraseP_modRecord s r.ref (f := Command.returned n) fun _ => rfl
  have pool : s.poolFree + n + (r.held - n) = s.poolFree + r.held := by omega
  rw [giveBack_eq h n hn]
  show ({ s.setLoan r.loan.slot { l with commands := l.commands - 1, idle := 0 } with
    records := (s.modRecord r.ref (Command.returned n)).records.eraseP (fun x => x.ref == r.ref)
    poolFree := s.poolFree + n + (r.held - n) } : State) = _
  rw [erased, pool]
  rfl

/-- R14: a loan whose end is not decided, or that has a command record left, does not go on to ENDED. -/
theorem endIfIdle_stays {s : State} {k : Nat} {l : Loan} (h : s.loan k = some l)
    (hl : l.state = .active ∨ l.state = .ended ∨ l.commands ≠ 0) : endIfIdle k s = s := by
  simp only [endIfIdle, h]
  refine if_neg ?_
  rintro ⟨hs, hc⟩
  rcases hl with e | e | e
  · simp [e] at hs
  · simp [e] at hs
  · exact e hc

theorem endIfIdle_free {s : State} {k : Nat} (h : s.loan k = none) : endIfIdle k s = s := by
  simp only [endIfIdle, h]

theorem endIfIdle_goes {s : State} {k : Nat} {l : Loan} (h : s.loan k = some l) (hs : l.state = .returning ∨ l.state = .ending)
    (hc : l.commands = 0) : endIfIdle k s = enterEnded k s := by
  simp only [endIfIdle, h]
  exact if_pos ⟨hs, hc⟩

/-- The loan of a record that has been freed. -/
theorem State.loan_withoutRecord {s : State} {r : Command} {l : Loan} (h : s.loan r.loan.slot = some l) :
    (s.withoutRecord r l).loan r.loan.slot = some { l with commands := l.commands - 1, idle := 0 } :=
  State.loan_setLoan_self _ (s.slot_lt_of_loan _ l h)

/-! ### A record sent (R173, R73, R61) -/

/-- The link after its first placed record has been sent. -/
def Link.sent (x : Link) (farReady : Bool) (rest : List OutRecord) : Link :=
  { x with placed := rest, farReady := farReady, sending := farReady && !rest.isEmpty }

theorem exec_recordSent {s : State} {l : Nat} {farReady : Bool} {o : OutRecord} {rest : List OutRecord} (hl : isLink l = true)
    (sending : (s.link l).sending = true) (placed : (s.link l).placed = o :: rest) :
    exec (.recordSent l farReady) s =
      .next (finish (dataSent (o.dataOf l) (s.setLink l ((s.link l).sent farReady rest)))) := by
  show execRecordSent l farReady s = _
  simp only [execRecordSent, onLink, hl, sending, recordSent, placed, if_true]
  rfl

theorem isLink_of_isNode {n : Nat} (h : isNode n = true) : isLink n = true := by
  simp only [isNode, isLink, Bool.and_eq_true, decide_eq_true_eq] at h ⊢
  omega

theorem dataOf_node {n : Nat} {o : OutRecord} {b i : Nat} {d : Block} (hn : isNode n = true) (h : o.record = .data b i d) :
    o.dataOf n = some { node := n, tag := o.tag } := by
  have : n ≠ 0 := fun e => by simp [e, isNode] at hn
  simp [OutRecord.dataOf, h, this]

/-- Settles O4: the sent record leaves the queue (`exec_recordSent`); a DATA returns a buffer (`giveBack_eq`), after which its
command record stays (`freeIfDone_stays`) or goes (`freeIfDone_goes`). -/
theorem recordSentFreesEntry : Obligations.RecordSentFreesEntry := by
  refine ⟨fun s l farReady o rest hl settled sending placed other => ?_,
    fun s n farReady o rest r b i d hn settled sending placed data record held stays => ?_,
    fun s n farReady o rest r l b i d hn settled sending placed data record held replied loan open_ => ?_, fun s l hl => ?_⟩
  · have none : o.dataOf l = none := by
      unfold OutRecord.dataOf
      split
      · exact absurd ‹_› (other _ _ _)
      · rfl
    rw [exec_recordSent hl sending placed, none]
    exact congrArg _ (finish_of_settled settled)
  · rw [exec_recordSent (isLink_of_isNode hn) sending placed, dataOf_node hn data]
    have returned := giveBack_eq (s := s.setLink n ((s.link n).sent farReady rest)) record 1 held
    have left : (giveBack { node := n, tag := o.tag } 1 (s.setLink n ((s.link n).sent farReady rest))).record
        { node := n, tag := o.tag } = some (r.returned 1) := by
      rw [returned]
      exact State.record_modRecord_some (s := s) record fun _ => rfl
    have stay := freeIfDone_stays left (stays.imp id fun h => Nat.sub_ne_zero_of_lt h)
    exact congrArg _ (((congrArg finish (stay.trans returned))).trans (finish_of_settled settled))
  · rw [exec_recordSent (isLink_of_isNode hn) sending placed, dataOf_node hn data]
    have name := State.ref_of_record record
    rw [← name] at record ⊢
    let u := s.setLink n ((s.link n).sent farReady rest)
    have returned := giveBack_eq (s := u) record 1 held.ge
    have left : (giveBack r.ref 1 u).record r.ref = some (r.returned 1) := by
      rw [returned]
      exact State.record_modRecord_some (s := s) record fun _ => rfl
    have free : (giveBack r.ref 1 u).loan r.loan.slot = some l := by rw [returned]; exact loan
    have freed := State.withoutRecord_giveBack (s := u) record l held.ge
    have gone : freeIfDone r.ref (giveBack r.ref 1 u) = u.withoutRecord r l := by
      rw [freeIfDone_goes left replied (by simp [Command.returned, held]), freeRecord_eq left free, freed]
      refine endIfIdle_stays (State.loan_withoutRecord (s := u) loan) (open_.imp id fun h => .inr ?_)
      exact Nat.sub_ne_zero_of_lt h
    exact congrArg _ ((congrArg finish gone).trans (finish_of_settled settled))
  · show execFarReadyRise l s = _
    simp only [execFarReadyRise, onLink, hl, if_true]
    rfl

end Sys2Proof.Machine
end

section
/-! PROOFS. What the end of a loan does to its one command record, and what becomes of the loan (R14 to R18, R93). -/

namespace Sys2Proof.Machine

/-! ### Final replies (R61, R76, R90) -/

/-- Command `r`, whose loan is `l`, can be given its final reply: the loan is not lost, and the node's link is present and holds
a reservation. -/
structure State.CanReply (s : State) (r : Command) (l : Loan) : Prop where
  record   : s.record r.ref = some r
  loan     : s.loan r.loan.slot = some l
  notLost  : l.endReason ≠ some .linkLost
  presence : (s.link r.node).presence = true
  reserved : 0 < (s.link r.node).reserved

/-- The state after a reply to command `r` has been placed into its reservation. -/
def State.replied (s : State) (r : Command) (out : Record) : State :=
  s.setLink r.node ((s.link r.node).replying { tag := r.tag, record := out })

/-- A command record whose final reply has been placed. -/
def Command.answered (r : Command) : Command := { r with replied := true }

theorem State.CanReply.finalReply {s : State} {r : Command} {l : Loan} (h : s.CanReply r l) (out : Record) :
    finalReply r.ref out s = (s.replied r out).modRecord r.ref Command.answered := by
  have kept : s.lost r = false := by simp [State.lost, h.loan, h.notLost]
  simp only [Machine.finalReply, h.record, kept]
  exact congrArg (State.modRecord · r.ref _) (placeReserved_eq h.presence h.reserved { tag := r.tag, record := out })

/-- R76: a READ or WRITE that ends at once. -/
theorem State.CanReply.endDone {s : State} {r : Command} {l : Loan} (h : s.CanReply r l) (st : Status) (blocks : Nat) :
    endDone r.ref st blocks s = endIfIdle r.loan.slot ((s.replied r (.done st blocks)).withoutRecord r l) := by
  have record : ((s.replied r (.done st blocks)).modRecord r.ref Command.answered).record r.ref = some r.answered :=
    State.record_modRecord_some (s := s.replied r _) h.record fun _ => rfl
  rw [Machine.endDone, h.finalReply, freeRecord_eq record (l := l) h.loan]
  exact congrArg _ (State.withoutRecord_modRecord _ r l (f := Command.answered) (fun _ => rfl) rfl rfl)

/-- What the end of a stream leaves of its record (R90). -/
def Command.streamEnded (r : Command) : Command := { r with state := .delivering, carry := 0, replied := true }

theorem State.CanReply.endStream {s : State} {r : Command} {l : Loan} (h : s.CanReply r l) (st : Status) :
    endStream r.ref st s =
      freeIfDone r.ref ((s.replied r (.streamEnd st r.delivered)).modRecord r.ref Command.streamEnded) := by
  simp only [Machine.endStream, h.record, h.finalReply]
  exact congrArg _ (State.modRecord_modRecord _ r.ref (f := Command.answered) (fun _ => rfl) _)

/-- R90: a stream that ends with DATA still to be sent keeps its record. -/
theorem State.CanReply.endStream_keeps {s : State} {r : Command} {l : Loan} (h : s.CanReply r l) (st : Status) (hr : 0 < r.held) :
    Machine.endStream r.ref st s = (s.replied r (.streamEnd st r.delivered)).modRecord r.ref Command.streamEnded := by
  rw [h.endStream]
  exact freeIfDone_stays (r := r.streamEnded)
    (State.record_modRecord_some (s := s.replied r _) h.record fun _ => rfl) (.inr hr.ne')

/-- R90: a stream that ends with all its DATA sent is freed. -/
theorem State.CanReply.endStream_frees {s : State} {r : Command} {l : Loan} (h : s.CanReply r l) (st : Status) (hr : r.held = 0) :
    Machine.endStream r.ref st s = endIfIdle r.loan.slot ((s.replied r (.streamEnd st r.delivered)).withoutRecord r l) := by
  have record : ((s.replied r (.streamEnd st r.delivered)).modRecord r.ref Command.streamEnded).record r.ref =
      some r.streamEnded := State.record_modRecord_some (s := s.replied r _) h.record fun _ => rfl
  rw [h.endStream, freeIfDone_goes record rfl hr, freeRecord_eq record (l := l) h.loan]
  exact congrArg _ (State.withoutRecord_modRecord _ r l (f := Command.streamEnded) (fun _ => rfl) rfl rfl)

/-! ### The end event of a loan reaches its record (R16, R93) -/

theorem set_getD_same {α : Type} (as : List α) (i : Nat) (d : α) : as.set i (as.getD i d) = as := by
  by_cases h : i < as.length
  · rw [List.getD_eq_getElem _ _ h, List.set_getElem_self]
  · exact List.set_eq_of_length_le (Nat.le_of_not_lt h)

/-- Changing a bay as it stands. -/
theorem State.modBay_same (s : State) (b : Nat) {f : Bay → Bay} (h : f (s.bay b) = s.bay b) : s.modBay b f = s := by
  rw [State.modBay, State.setBay, h, State.bay, set_getD_same]

/-- A command queued on a bay can be replied to when it has left the ring. -/
theorem State.CanReply.ringDrop {s : State} {r : Command} {l : Loan} (h : s.CanReply r l) (b : Nat) (ref : CommandRef) :
    (Machine.ringDrop b ref s).CanReply r l :=
  ⟨h.record, h.loan, h.notLost, h.presence, h.reserved⟩

/-- R16, R93: a record that ends at once is replied to, leaves its bay, and is freed. -/
theorem State.CanReply.endWork_atOnce {s : State} {r : Command} {l : Loan} (h : s.CanReply r l) {b : Nat} {reason : EndReason}
    {first : Bool} {out : Record} {bay : Bay → Bay} (e : r.endsAtOnce (workStatus reason) out bay) :
    endWork b reason first r.ref s = endIfIdle r.loan.slot (((s.modBay b bay).replied r out).withoutRecord r l) := by
  unfold endWork
  rcases e with ⟨hk, hs, rfl, rfl⟩ | ⟨hk, hs, rfl, rfl⟩ | ⟨hk, hs, hh, rfl, rfl⟩
  · simp only [h.record, hs]
    exact (h.ringDrop b r.ref).endDone (workStatus reason) 0
  · simp only [h.record, hk, hs, State.modBay_same s b (f := fun x => x) rfl]
    exact h.endDone (workStatus reason) 0
  · simp only [h.record, hk, hs]
    exact (h.ringDrop b r.ref).endStream_frees (workStatus reason) hh

/-- R93: a QUEUED stream with DATA still to be sent leaves its bay, and keeps its record. -/
theorem State.CanReply.endWork_stream {s : State} {r : Command} {l : Loan} (h : s.CanReply r l) {b : Nat} {reason : EndReason}
    {first : Bool} (hk : r.kind = .stream) (hs : r.state = .queued) (hh : 0 < r.held) :
    endWork b reason first r.ref s =
      (((s.modBay b (Bay.dropping r.ref)).replied r (.streamEnd (workStatus reason) r.delivered)).modRecord r.ref
        Command.streamEnded) := by
  unfold endWork
  simp only [h.record, hk, hs]
  exact (h.ringDrop b r.ref).endStream_keeps (workStatus reason) hh

/-- R16: a chosen READ or WRITE has its stop set while it is on the disk, and is else left as it is. -/
theorem endWork_chosen {s : State} {r : Command} {b : Nat} {reason : EndReason} {first : Bool} (h : s.record r.ref = some r)
    (hc : r.chosen) (hk : r.kind ≠ .stream) (hr : reason ≠ .linkLost) :
    endWork b reason first r.ref s =
      if r.state = .delivering then s else s.modRecord r.ref fun r => { r with stop := r.stop || reason.stops } := by
  unfold endWork
  rcases hc with hs | hs | hs <;> simp [h, hs, hr]

/-- R93: a chosen stream has its closing and its stop set, unless its STREAM END has been placed. -/
theorem endWork_chosenStream {s : State} {r : Command} {b : Nat} {reason : EndReason} {first : Bool}
    (h : s.record r.ref = some r) (hc : r.chosen) (hk : r.kind = .stream) (hr : reason ≠ .linkLost) :
    endWork b reason first r.ref s =
      if r.replied then s else s.modRecord r.ref fun r =>
        { r with closing := if first then some (workStatus reason) else r.closing, stop := r.stop || reason.stops } := by
  unfold endWork
  rcases hc with hs | hs | hs <;> simp [h, hk, hs, hr]

/-! ### The loan (R14, R15, R18) -/

/-- R15: an ACTIVE loan whose end has been decided. -/
def Loan.ending (l : Loan) (reason : EndReason) : Loan :=
  { l with state := if reason = .returned then .returning else .ending, endReason := some reason, idle := 0, move := none }

theorem decideEnd_active {s : State} {k : Nat} {l : Loan} {reason : EndReason} (h : s.loan k = some l) (ha : l.state = .active)
    (hr : reason ≠ .linkLost) : decideEnd k reason s =
      endIfIdle k ((s.recordsOf k).foldl (fun s ref => endWork l.placedBay reason true ref s)
        (s.setLoan k (l.ending reason)).oweScan) := by
  simp only [decideEnd, h, ha, hr, if_true, if_false]
  rfl

@[simp] theorem State.setSlot_setSlot (s : State) (k : Nat) (x y : Slot) : (s.setSlot k x).setSlot k y = s.setSlot k y := by
  simp [State.setSlot, List.set_set]

/-- Setting a slot's loan keeps its issue. -/
theorem State.issue_setLoan (s : State) (k m : Nat) (l : Loan) : ((s.setLoan k l).slot m).issue = (s.slot m).issue := by
  by_cases e : k = m
  · subst e
    by_cases h : k < s.loans.length
    · rw [State.setLoan, State.slot_setSlot_self _ _ _ h]
    · rw [State.setLoan, State.setSlot, List.set_eq_of_length_le (Nat.le_of_not_lt h)]
  · rw [State.setLoan, State.slot_setSlot_ne _ _ _ _ e]

/-- A loan set in a slot, once more. -/
@[simp] theorem State.setLoan_setLoan (s : State) (k : Nat) (l m : Loan) : (s.setLoan k l).setLoan k m = s.setLoan k m := by
  show ((s.setLoan k l).setSlot k { issue := ((s.setLoan k l).slot k).issue, loan := some m }) = _
  rw [State.issue_setLoan, State.setLoan, State.setSlot_setSlot]
  rfl

/-- A loan through no twin, set in a slot of the table, is freed with it. -/
theorem freeSlot_setLoan {s : State} {k : Nat} {l : Loan} (h : k < s.loans.length) (hv : l.viaTwin = none) :
    freeSlot k (s.setLoan k l) = (s.setSlot k { issue := (s.slot k).issue, loan := none }).oweScan := by
  rw [freeSlot_eq (State.loan_setLoan_self _ h) hv, State.issue_setLoan, State.setLoan, State.setSlot_setSlot]

/-- R14, R18: a returned loan placed through no twin reaches ENDED: its RETURNED is placed and its slot freed. -/
theorem enterEnded_returned {s : State} {k t : Nat} {l : Loan} (h : s.loan k = some l) (he : l.endReason = some .returned)
    (ht : l.returnTag = some t) (hv : l.viaTwin = none) (hp : (s.link l.borrower).presence = true)
    (hr : 0 < (s.link l.borrower).reserved) : enterEnded k s =
      ((s.setSlot k { issue := (s.slot k).issue, loan := none }).setLink l.borrower ((s.link l.borrower).replying
        { tag := t, record := .returned { slot := k, issue := (s.slot k).issue } .ok none })).oweScan := by
  have lt := s.slot_lt_of_loan k l h
  simp only [enterEnded, h, he, ht, reduceCtorEq, if_false, if_true, Option.some.injEq, placeReserved_eq hp hr]
  exact freeSlot_setLoan (s := s.setLink l.borrower _) lt
    (show ({ l with state := .ended, endReason := some .returned, idle := 0, notice := none, returnTag := some t } : Loan).viaTwin = none
      from hv)

end Sys2Proof.Machine
end

section
/-! PROOFS. RETURN (O15). -/

namespace Sys2Proof.Machine

/-- R2: what the loan that a request of node `n` matches is. -/
theorem matchLoan_some {s : State} {n : Nat} {id : LoanId} {l : Loan} (h : s.matchLoan (some n) id = some l) :
    s.loan id.slot = some l ∧ (s.slot id.slot).issue = id.issue ∧ l.borrower = n ∧ l.endReason ≠ some .linkLost := by
  have loan := loan_of_matchLoan h
  unfold State.matchLoan at h
  rw [loan] at h
  dsimp only at h
  split_ifs at h with issue node
  exact ⟨loan, not_not.mp issue, node⟩

theorem exec_returnLoan {s : State} {n : Nat} {f : Frame} (hn : isNode n = true) (h : s.CanTake n kindReturn 1 f) :
    exec (.returnLoan n) s = .next (finish (returnAct n f (s.took n 1))) := h.onNode (needs := oneEntry) hn _

/-- R22: a RETURN that passes its checks acts on the loan that it matches. -/
theorem returnAct_matched {s : State} {n : Nat} {f : Frame} {l : Loan} (tag : f.tag ≠ 0) (fresh : s.tagPending n f.tag = false)
    (long : 2 ≤ f.body.length) (h : s.matchLoan (some n) (loanIdAt f.body 0) = some l) :
    returnAct n f (s.took n 1) = returnMatched n f (loanIdAt f.body 0) l (s.took n 1) := by
  simp [returnAct, tag, Nat.not_lt.mpr long, State.took, fresh, h]

/-- An ACTIVE loan whose return has been decided, with the RETURN's tag (R15, R22). -/
def Loan.returning (l : Loan) (tag : Nat) : Loan :=
  { l with state := .returning, endReason := some .returned, idle := 0, move := none, returnTag := some tag }

/-- What the end of an ACTIVE loan that is returned begins from: the frame taken, the loan RETURNING, and a scan owed. -/
def State.returnBegun (s : State) (n k tag : Nat) (l : Loan) : State :=
  ((s.setLoan k (l.returning tag)).took n 1).oweScan

section
variable {s : State} {n k tag : Nat} {l : Loan} {r : Command}

theorem State.returnBegun_link (hp : (s.link n).presence = true) : (s.returnBegun n k tag l).link n = (s.link n).kept :=
  State.link_setLink_self _ _ _ (link_lt_of_presence hp)

theorem State.returnBegun_loan (h : s.loan k = some l) : (s.returnBegun n k tag l).loan k = some (l.returning tag) :=
  State.loan_setLoan_self _ (s.slot_lt_of_loan k l h)

/-- R16, R22: a RETURN of an ACTIVE loan reaches the loan's command records. -/
theorem returnMatched_active {f : Frame} {id : LoanId} (h : s.loan id.slot = some l) (active : l.state = .active) :
    returnMatched n f id l (s.took n 1) = endIfIdle id.slot ((s.recordsOf id.slot).foldl
      (fun s ref => endWork l.placedBay .returned true ref s) (s.returnBegun n id.slot f.tag l)) := by
  have loan : ((s.took n 1).setLoan id.slot { l with returnTag := some f.tag }).loan id.slot =
      some { l with returnTag := some f.tag } := State.loan_setLoan_self _ (s.slot_lt_of_loan _ l h)
  have act : returnMatched n f id l (s.took n 1) =
      decideEnd id.slot .returned ((s.took n 1).setLoan id.slot { l with returnTag := some f.tag }) := by
    unfold returnMatched
    split <;> simp_all
  rw [act, decideEnd_active loan active (by decide), State.setLoan_setLoan]
  rfl

/-- R16: a RETURN of an ACTIVE loan with one command record reaches that record. -/
theorem returnMatched_one {f : Frame} {id : LoanId} (h : s.loan id.slot = some l) (active : l.state = .active)
    (only : s.onlyRecord id.slot r) : returnMatched n f id l (s.took n 1) =
      endIfIdle id.slot (endWork l.placedBay .returned true r.ref (s.returnBegun n id.slot f.tag l)) := by
  rw [returnMatched_active h active, only.1]
  rfl

/-- R14, R16: a RETURN whose loan keeps its one command owes no more than a scan, which without wait entries grants nothing. -/
theorem finish_returnMatched_stays {f : Frame} {id : LoanId} {t : State} (h : s.loan id.slot = some l) (active : l.state = .active)
    (busy : l.commands ≠ 0) (only : s.onlyRecord id.slot r)
    (e : endWork l.placedBay .returned true r.ref (s.returnBegun n id.slot f.tag l) = t.oweScan)
    (held : t.loan id.slot = some (l.returning f.tag)) (hw : t.waits = []) (hs : t.Settled) :
    finish (returnMatched n f id l (s.took n 1)) = t := by
  have stay : endIfIdle id.slot t.oweScan = t.oweScan := endIfIdle_stays (l := l.returning f.tag) held (.inr (.inr busy))
  rw [returnMatched_one h active only, e, stay, finish_oweScan hw hs]

/-- R14, R22: a loan through no twin that is returned with no command record has its slot freed, and is answered. -/
theorem endIfIdle_returnBegun (h : s.loan k = some l) (hb : l.borrower = n) (hp : (s.link n).presence = true)
    (idle : l.commands = 0) (via : l.viaTwin = none) : endIfIdle k (s.returnBegun n k tag l) =
      ((s.setSlot k { issue := (s.slot k).issue, loan := none }).setLink n ((s.link n).taken.placing
        { tag := tag, record := .returned { slot := k, issue := (s.slot k).issue } .ok none })).oweScan := by
  subst hb
  have link := State.returnBegun_link (k := k) (tag := tag) (l := l) hp
  have loan := State.returnBegun_loan (n := l.borrower) (tag := tag) h
  have issue : ((s.returnBegun l.borrower k tag l).slot k).issue = (s.slot k).issue := State.issue_setLoan s k k _
  rw [endIfIdle_goes loan (.inl rfl) idle, enterEnded_returned loan rfl rfl via
    (by show (State.link _ l.borrower).presence = _; rw [link]; exact hp)
    (by show 0 < (State.link _ l.borrower).reserved; rw [link]; exact Nat.succ_pos _), issue]
  have link' : (s.returnBegun l.borrower k tag l).link (l.returning tag).borrower = (s.link l.borrower).kept := link
  rw [link']
  show ((((s.setLoan k (l.returning tag)).setSlot k _).setLink l.borrower _).setLink l.borrower _).oweScan = _
  rw [State.setLoan, State.setSlot_setSlot, State.setLink_setLink]
  rfl

/-- A command of the node is replied to while its loan is returned. -/
theorem State.returnBegun_canReply (h : s.loan k = some l) (only : s.onlyRecord k r) (hn : r.node = n)
    (hp : (s.link n).presence = true) : (s.returnBegun n k tag l).CanReply r (l.returning tag) := by
  obtain ⟨-, record, rfl⟩ := only
  have link := State.returnBegun_link (k := r.loan.slot) (tag := tag) (l := l) hp
  refine ⟨record, State.returnBegun_loan h, by simp [Loan.returning], ?_, ?_⟩
  · rw [hn, link]; exact hp
  · rw [hn, link]; exact Nat.succ_pos _

/-- What a reply to a command of the node leaves, while its loan is returned. -/
theorem State.returnBegun_replied (hp : (s.link n).presence = true) (hn : r.node = n) (b : Nat) (bay : Bay → Bay) (out : Record) :
    ((s.returnBegun n k tag l).modBay b bay).replied r out = (((s.setLoan k (l.returning tag)).modBay b bay).setLink n
      ((s.link n).kept.replying { tag := r.tag, record := out })).oweScan := by
  subst hn
  have link : ((s.returnBegun r.node k tag l).modBay b bay).link r.node = (s.link r.node).kept := State.returnBegun_link hp
  rw [State.replied, link]
  show ((((s.setLoan k (l.returning tag)).modBay b bay).setLink r.node _).setLink r.node _).oweScan = _
  rw [State.setLink_setLink]

/-- R14, R16: a loan through no twin that is returned while its one command ends at once: the command is answered and freed, the
loan's slot too, and RETURNED follows. -/
theorem endIfIdle_returnedWork (h : s.loan k = some l) (hb : l.borrower = n) (hp : (s.link n).presence = true)
    (one : l.commands = 1) (via : l.viaTwin = none) (only : s.onlyRecord k r) (hn : r.node = n) (reserved : 0 < (s.link n).reserved)
    (b : Nat) (bay : Bay → Bay) (out : Record) :
    endIfIdle k ((((s.returnBegun n k tag l).modBay b bay).replied r out).withoutRecord r (l.returning tag)) =
      (((s.withoutLoan k r).modBay b bay).setLink n (((s.link n).taken.replying { tag := r.tag, record := out }).placing
        { tag := tag, record := .returned { slot := k, issue := (s.slot k).issue } .ok none })).oweScan := by
  obtain ⟨-, -, rfl⟩ := only
  subst hb
  rw [State.returnBegun_replied hp hn]
  set x := (s.link l.borrower).kept.replying { tag := r.tag, record := out } with hx
  let u : State := ((((s.setLoan r.loan.slot (l.returning tag)).modBay b bay).setLink l.borrower x).oweScan).withoutRecord r
    (l.returning tag)
  have loan : u.loan r.loan.slot = some { l.returning tag with commands := l.commands - 1, idle := 0 } :=
    State.loan_withoutRecord (l := l.returning tag) (State.returnBegun_loan (n := l.borrower) h)
  have link : u.link l.borrower = x := State.link_setLink_self s _ _ (link_lt_of_presence hp)
  have issue : (u.slot r.loan.slot).issue = (s.slot r.loan.slot).issue := by
    show (((s.setLoan r.loan.slot (l.returning tag)).setLoan r.loan.slot _).slot r.loan.slot).issue = _
    rw [State.setLoan_setLoan, State.issue_setLoan]
  have goes := enterEnded_returned (s := u) (k := r.loan.slot) loan rfl rfl via (link ▸ hp) (link ▸ reserved)
  have loans : (u.setSlot r.loan.slot { issue := (s.slot r.loan.slot).issue, loan := none }).loans =
      (s.withoutLoan r.loan.slot r).loans := by
    show (((s.loans.set _ _).set _ _).set _ _) = s.loans.set _ _
    rw [List.set_set, List.set_set]
  rw [endIfIdle_goes (s := u) loan (.inl rfl) (by simp [one]), goes, issue]
  show ((({ (((s.withoutLoan r.loan.slot r).modBay b bay).setLink l.borrower x) with
    loans := (u.setSlot r.loan.slot { issue := (s.slot r.loan.slot).issue, loan := none }).loans }).setLink l.borrower
      ((u.link l.borrower).replying _))).oweScan = _
  rw [link, loans]
  show (((((s.withoutLoan r.loan.slot r).modBay b bay).setLink l.borrower x).setLink l.borrower _)).oweScan = _
  rw [State.setLink_setLink]
  rfl

end

/-- Settles O15: the checks answer at once; a RETURN that matches acts by the loan's state (`returnMatched`), and for an ACTIVE
loan by what becomes of its one command (`endWork_chosen`, `endWork_stream`, `endWork_atOnce`). -/
theorem returnActsByState : Obligations.ReturnActsByState := by
  intro s n f hn h id
  have answered (r : Record) : finish (reply n f r (s.took n 1)) = s.answer n f r :=
    finish_reply_took h.settled h.presence f r
  refine ⟨fun tag => ?_, fun tag dup => ?_, fun tag fresh short => ?_, fun tag fresh long unmatched => ?_,
    fun l tag fresh long matched => ?_⟩
  · rw [exec_returnLoan hn h, returnAct, if_pos tag, reject, answered, h.isKind]; rfl
  · have act : returnAct n f (s.took n 1) = reject n f rejectDup (s.took n 1) := by
      simp [returnAct, tag, State.took, dup]
    rw [exec_returnLoan hn h, act, reject, answered, h.isKind]; rfl
  · have act : returnAct n f (s.took n 1) = reject n f (rejectLength f.body 2) (s.took n 1) := by
      simp [returnAct, tag, State.took, fresh, short]
    rw [exec_returnLoan hn h, act, reject, answered, h.isKind]
    simp [rejectLength, short.le]
  · have act : returnAct n f (s.took n 1) = reply n f (.returned id .noLoan none) (s.took n 1) := by
      simp [returnAct, tag, State.took, fresh, Nat.not_lt.mpr long, id, unmatched]
    rw [exec_returnLoan hn h, act, answered]
  obtain ⟨loan, issue, borrower, notLost⟩ := matchLoan_some matched
  have acts := (exec_returnLoan hn h).trans (congrArg (fun u => Host.Outcome.next (finish u))
    (returnAct_matched tag fresh long matched))
  refine ⟨fun active idle alone via waits => ?_, fun r active busy only waits => ?_,
    fun r out bay active one only via waits ends node reserved => ?_, fun late untagged => ?_, fun late tagged => ?_,
    fun ended via waits => ?_⟩
  · rw [acts, returnMatched_active loan active, alone, List.foldl_nil,
      endIfIdle_returnBegun loan borrower h.presence idle via, issue]
    exact congrArg _ (finish_oweScan waits h.settled)
  · have record : (s.returnBegun n id.slot f.tag l).record r.ref = some r := only.2.1
    have stays {t : State} (e : endWork l.placedBay .returned true r.ref (s.returnBegun n id.slot f.tag l) = t.oweScan)
        (held : t.loan id.slot = some (l.returning f.tag)) (w : t.waits = []) (d : t.Settled) :
        exec (.returnLoan n) s = .next t :=
      acts.trans (congrArg _ (finish_returnMatched_stays loan active busy only e held w d))
    have held : (s.setLoan id.slot (l.returning f.tag)).loan id.slot = some (l.returning f.tag) :=
      State.loan_setLoan_self _ (s.slot_lt_of_loan _ l loan)
    refine ⟨fun chosen left => ?_, fun chosen stream unsent => ?_, fun stream queued carried node reserved => ?_⟩
    · refine stays (t := (s.setLoan id.slot (l.returning f.tag)).setLink n (s.link n).kept) ?_ held waits h.settled
      by_cases stream : r.kind = .stream
      · rw [endWork_chosenStream record chosen stream (by decide), if_pos (left.resolve_left (not_not_intro stream))]
        rfl
      · have same : (s.returnBegun n id.slot f.tag l).modRecord r.ref
            (fun r => { r with stop := r.stop || EndReason.stops .returned }) = s.returnBegun n id.slot f.tag l :=
          State.modRecord_same fun r _ => by simp [EndReason.stops]
        rw [endWork_chosen record chosen stream (by decide), same, ite_self]
        rfl
    · refine stays (t := ((s.setLoan id.slot (l.returning f.tag)).modRecord r.ref
        fun r => { r with closing := some .cancelled }).setLink n (s.link n).kept) ?_ held waits h.settled
      rw [endWork_chosenStream record chosen stream (by decide), if_neg (by simp [unsent])]
      simp only [if_true, EndReason.stops, Bool.or_false]
      rfl
    · refine stays (t := (((s.setLoan id.slot (l.returning f.tag)).modRecord r.ref fun r =>
          { r with state := .delivering, carry := 0, replied := true }).modBay l.placedBay (Bay.dropping r.ref)).setLink n
          ((s.link n).kept.replying { tag := r.tag, record := .streamEnd .cancelled r.delivered })) ?_ held waits h.settled
      rw [(State.returnBegun_canReply loan only node h.presence).endWork_stream stream queued carried]
      have replied := State.returnBegun_replied (s := s) (k := id.slot) (tag := f.tag) (l := l) h.presence node l.placedBay
        (Bay.dropping r.ref) (.streamEnd (workStatus .returned) r.delivered)
      exact congrArg (State.modRecord · r.ref Command.streamEnded) replied
  · have gone := (State.returnBegun_canReply (tag := f.tag) loan only node h.presence).endWork_atOnce
      (b := l.placedBay) (reason := .returned) (first := true) ends
    have ended := endIfIdle_returnedWork (tag := f.tag) loan borrower h.presence one via only node reserved l.placedBay bay out
    rw [only.2.2] at gone
    have free : (s.withoutLoan id.slot r).loan id.slot = none :=
      congrArg Slot.loan (State.slot_setSlot_self s id.slot _ (s.slot_lt_of_loan _ l loan))
    have stays (x : Link) : endIfIdle id.slot (((s.withoutLoan id.slot r).modBay l.placedBay bay).setLink n x).oweScan =
        (((s.withoutLoan id.slot r).modBay l.placedBay bay).setLink n x).oweScan := endIfIdle_free free
    rw [acts, returnMatched_one loan active only, gone, ended, stays, issue]
    exact congrArg _ (finish_oweScan waits h.settled)
  · rw [acts]
    have act : returnMatched n f id l (s.took n 1) = (s.took n 1).setLoan id.slot { l with returnTag := some f.tag } := by
      rcases late with e | e <;> simp [returnMatched, e, untagged]
    rw [act]
    exact congrArg _ (finish_of_settled h.settled)
  · rw [acts]
    have act : returnMatched n f id l (s.took n 1) = reply n f (.returned id .ended l.endReason) (s.took n 1) := by
      rcases late with e | e <;> simp [returnMatched, e, tagged]
    rw [act, answered]
  · have act : returnMatched n f id l (s.took n 1) = freeSlot id.slot (s.answer n f (.returned id .ended l.endReason)) := by
      simp only [returnMatched, ended, reply_took h.presence (Nat.le_refl 1)]
      rfl
    have free : (s.answer n f (.returned id .ended l.endReason)).loan id.slot = some l := loan
    rw [acts, act, freeSlot_eq free via, show ((s.answer n f _).slot id.slot).issue = id.issue from issue]
    exact congrArg _ (finish_oweScan waits h.settled)

end Sys2Proof.Machine
end

section
/-! PROOFS. RECLAIM of a loan beyond the table (O18). -/

namespace Sys2Proof.Machine

/-- RECLAIM of the loan in slot 96. -/
def reclaimBeyond : Frame := { kind := kindReclaim, tag := 1, body := [96#8, 1#8] }

/-- An ACTIVE loan of node 1 without a command. -/
def loanBeyond : Loan :=
  { borrower := 1, askedBay := 0, placedBay := 0, viaTwin := none, kind := .view, cls := .normal, range := none
    state := .active, endReason := none, holdBase := 500, holdLimit := 500, idle := 0, commands := 0, notice := none
    returnTag := none, move := none }

/-- A loan table of 97 slots, the last of which holds a loan: slot 96 is no slot of the part, so no scan of the table's
96 slots comes to it. The RECLAIM stands at the head of the supervisor's queue, and node 1's queue has room. -/
def tableTooLong : State :=
  { State.reset with
    links := [{ Link.initial with presence := true, inbound := [reclaimBeyond] }, { Link.initial with presence := true }]
    loans := List.replicate 96 { issue := 0, loan := none } ++ [{ issue := 1, loan := some loanBeyond }]
    notices := { Notices.afterReset with cause := Notices.afterReset.bay } }

theorem tableTooLong_canTake : tableTooLong.CanTake 0 kindReclaim 1 reclaimBeyond :=
  ⟨rfl, rfl, rfl, rfl, rfl, by decide +kernel⟩

/-- Whether slot 96 still holds a loan in the next state. -/
def holdsBeyond : Result → Bool
  | .next t => (t.loan 96).isSome
  | _ => false

/-- The part leaves the loan ENDED with its notice pending, though its node's queue has room. -/
theorem exec_reclaim_tableTooLong : holdsBeyond (exec .reclaim tableTooLong) = true := by decide +kernel

/-- No slot of the part's own table holds a loan. -/
theorem tableTooLong_within : ∀ j < Config.slots, tableTooLong.loan j = none := by decide +kernel

/-- Refutes O18: the statement does not bound the matched slot by the table's 96. For a loan in slot 96 with room on its node's
queue it says that LOAN ENDED is placed and the slot freed in the same step; the model's offer comes to slots 0 to 95 alone, and
leaves the loan ENDED in its slot with the notice pending. -/
theorem not_reclaimActsByState : ¬ Obligations.ReclaimActsByState := by
  intro h
  obtain ⟨-, -, -, ended, -⟩ := h tableTooLong reclaimBeyond tableTooLong_canTake (by decide)
  have matched : tableTooLong.matchLoan none (loanIdAt reclaimBeyond.body 0) = some loanBeyond := by decide +kernel
  obtain ⟨idle, -⟩ := ended loanBeyond (by decide) matched rfl rfl rfl (by decide)
  have freed := (idle rfl (by decide +kernel)).2 ⟨by decide +kernel, by decide +kernel⟩ ⟨rfl, ?_⟩
  · have := exec_reclaim_tableTooLong
    rw [freed] at this
    exact absurd this (by decide +kernel)
  · intro j x within _ loan
    simp [tableTooLong_within j within] at loan

end Sys2Proof.Machine
end

section
/-! PROOFS. Held moves (O46). -/

namespace Sys2Proof.Machine

/-! ### The ring that a moved loan joins (R99, R101) -/

/-- The member of the loan in slot `k` whose queued commands are `refs`, with credit 0. -/
def memberOf (k : Nat) (cls : Cls) (refs : List CommandRef) : Member :=
  { who := .loan k, cls, credit := 0, visited := false, queued := refs }

theorem modifyFirst_append {α : Type} {p : α → Bool} {f : α → α} {as : List α} {a : α} (h : ∀ b ∈ as, p b = false)
    (ha : p a = true) : modifyFirst p f (as ++ [a]) = as ++ [f a] := by
  induction as with
  | nil => simp [modifyFirst, ha]
  | cons b as ih =>
    rw [List.cons_append, modifyFirst, if_neg (by simp [h b]), ih fun c hc => h c (List.mem_cons_of_mem b hc), List.cons_append]

/-- The first command of a loan puts the loan at the ring's end. -/
theorem joinRing_first {k : Nat} {ring : List Member} (h : ∀ y ∈ ring, y.who ≠ .loan k) (cls : Cls) (ref : CommandRef) :
    joinRing k cls ref ring = ring ++ [memberOf k cls [ref]] :=
  if_neg (by simpa using h)

/-- A further command of a loan at the ring's end follows its others. -/
theorem joinRing_next {k : Nat} {ring : List Member} (h : ∀ y ∈ ring, y.who ≠ .loan k) (cls : Cls) (refs : List CommandRef)
    (ref : CommandRef) :
    joinRing k cls ref (ring ++ [memberOf k cls refs]) = ring ++ [memberOf k cls (refs ++ [ref])] := by
  rw [joinRing, if_pos (by simp [memberOf]), modifyFirst_append (fun y hy => by simpa using h y hy) (by simp [memberOf])]
  rfl

theorem State.modBay_modBay {s : State} {b : Nat} (h : b < s.bays.length) (f g : Bay → Bay) :
    (s.modBay b f).modBay b g = s.modBay b fun x => g (f x) := by
  show (s.setBay b _).setBay b (g ((s.setBay b _).bay b)) = _
  rw [State.bay_setBay_self _ _ _ h]
  simp [State.setBay, State.modBay, List.set_set]

/-- Bay `b` with the loan in slot `k` at its ring's end. -/
def State.joined (s : State) (b k : Nat) (cls : Cls) (refs : List CommandRef) : State :=
  s.modBay b fun y => { y with ring := y.ring ++ [memberOf k cls refs] }

/-- R167: a count that is not the hot threshold starts no copy. -/
theorem hotTrigger_quiet {s : State} {b count : Nat} (h : count ≠ (s.profile b).hotThreshold) : hotTrigger b count s = s :=
  if_neg fun c => h c.2.1

section
variable {s : State} {b k : Nat} {l : Loan} {ref : CommandRef}

/-- A command that is QUEUED joins the ring of a bay whose hot trigger its count does not reach. -/
theorem queueCommand_eq (hl : s.loan k = some l) (hq : ∀ r, s.record ref = some r → r.state = .queued) (hb : b < s.bays.length)
    (quiet : ((joinRing k l.cls ref (s.bay b).ring).map fun y => y.queued.length).sum ≠ (s.profile b).hotThreshold) :
    queueCommand b k ref s = s.modBay b fun y => { y with ring := joinRing k l.cls ref y.ring } := by
  have same : (s.modRecord ref fun r => { r with state := .queued }) = s :=
    State.modRecord_same fun r hr => by rw [← hq r hr]
  have bay := State.bay_setBay_self s b { s.bay b with ring := joinRing k l.cls ref (s.bay b).ring } hb
  simp only [queueCommand, hl, same]
  refine hotTrigger_quiet ?_
  show ((State.bay (s.setBay b _) b).ring.map fun y => y.queued.length).sum ≠ _
  rw [bay]
  exact quiet

theorem queueCommand_first (hl : s.loan k = some l) (hq : ∀ r, s.record ref = some r → r.state = .queued) (hb : b < s.bays.length)
    (new : ∀ y ∈ (s.bay b).ring, y.who ≠ .loan k)
    (quiet : ((s.bay b).ring.map fun y => y.queued.length).sum + 1 ≠ (s.profile b).hotThreshold) :
    queueCommand b k ref s = s.joined b k l.cls [ref] := by
  have ring := joinRing_first new l.cls ref
  rw [queueCommand_eq hl hq hb (by simpa [ring, memberOf] using quiet)]
  simp only [State.joined, State.modBay, ring]

theorem queueCommand_next (refs : List CommandRef) (hl : s.loan k = some l) (hq : ∀ r, s.record ref = some r → r.state = .queued)
    (hb : b < s.bays.length) (new : ∀ y ∈ (s.bay b).ring, y.who ≠ .loan k)
    (quiet : ((s.bay b).ring.map fun y => y.queued.length).sum + refs.length + 1 ≠ (s.profile b).hotThreshold) :
    queueCommand b k ref (s.joined b k l.cls refs) = s.joined b k l.cls (refs ++ [ref]) := by
  have ring := joinRing_next new l.cls refs ref
  have bay : ((s.joined b k l.cls refs).bay b).ring = (s.bay b).ring ++ [memberOf k l.cls refs] :=
    congrArg Bay.ring (State.bay_setBay_self s b _ hb)
  rw [queueCommand_eq (s := s.joined b k l.cls refs) hl hq (by simpa [State.joined] using hb)
    (by show _ ≠ (s.profile b).hotThreshold; rw [bay, ring]; simpa [memberOf, Nat.add_assoc] using quiet),
    State.joined, State.modBay_modBay hb]
  simp only [State.joined, State.modBay, ring]

/-- A loan's QUEUED commands join the ring of a new bay in their order. -/
theorem foldl_queueCommand (hl : s.loan k = some l) (hb : b < s.bays.length) (new : ∀ y ∈ (s.bay b).ring, y.who ≠ .loan k)
    (refs : List CommandRef) (hq : ∀ ref ∈ refs, ∀ r, s.record ref = some r → r.state = .queued) (busy : refs ≠ [])
    (quiet : ∀ i < refs.length, ((s.bay b).ring.map fun y => y.queued.length).sum + i + 1 ≠ (s.profile b).hotThreshold) :
    refs.foldl (fun s ref => queueCommand b k ref s) s = s.joined b k l.cls refs := by
  have further (rest done : List CommandRef) (hq : ∀ ref ∈ rest, ∀ r, s.record ref = some r → r.state = .queued)
      (quiet : ∀ i < (done ++ rest).length,
        ((s.bay b).ring.map fun y => y.queued.length).sum + i + 1 ≠ (s.profile b).hotThreshold) :
      rest.foldl (fun s ref => queueCommand b k ref s) (s.joined b k l.cls done) = s.joined b k l.cls (done ++ rest) := by
    induction rest generalizing done with
    | nil => simp
    | cons ref rest ih =>
      rw [List.foldl_cons, queueCommand_next done hl (hq ref List.mem_cons_self) hb new (quiet _ (by simp)),
        ih (done ++ [ref]) (fun a ha => hq a (List.mem_cons_of_mem ref ha)) (by simpa using quiet)]
      simp
  cases refs with
  | nil => exact absurd rfl busy
  | cons ref rest =>
    rw [List.foldl_cons, queueCommand_first hl (hq ref List.mem_cons_self) hb new (quiet 0 (by simp)),
      further rest [ref] (fun a ha => hq a (List.mem_cons_of_mem ref ha)) quiet]
    rfl

end

/-! ### The move (R21, R19) -/

/-- A loan moved to bay `b` through `via`, its notice pending. -/
def Loan.movedTo (l : Loan) (b : Nat) (via : Option Nat) : Loan :=
  { l with placedBay := b, viaTwin := via, move := none, notice := some .loanMoved }

/-- No other notice of the node of loan `l`, in slot `k`, is pending. -/
def State.NoOtherNotice (s : State) (k : Nat) (l : Loan) : Prop :=
  ∀ j x, j < Config.slots → j ≠ k → s.loan j = some x → x.borrower = l.borrower → x.notice = none

section
variable {s : State} {k b : Nat} {l : Loan} {via : Option Nat}

/-- A loan through no twin is moved: its commands leave the old bay's ring and join the new bay's, and its notice is offered. -/
theorem carryOutMove_eq (h : s.loan k = some l) (hv : l.viaTwin = none) : carryOutMove k b via s =
    offerLoanNotices l.borrower ((((s.bay l.placedBay).ring.filter fun m => m.who == .loan k).flatMap Member.queued).foldl
      (fun s ref => queueCommand b k ref s) ((ringLeave l.placedBay (.loan k) s).setLoan k (l.movedTo b via))).oweScan := by
  simp only [carryOutMove, h, hv]
  rfl

/-- A held move whose command has left the disk, toward a READY bay. -/
theorem exec_heldMoveCarryOut {m : HeldMove} (hk : k < Config.slots) (h : s.loan k = some l) (hm : l.move = some m)
    (idle : s.workOnBay k = false) (ready : (s.bay m.bay).state = .ready) :
    exec (.heldMoveCarryOut k) s = .next (finish (carryOutMove k m.bay m.via s)) := by
  have due : s.moveDue k = true := by simp [State.moveDue, h, hm, idle]
  show execHeldMoveCarryOut k s = _
  simp only [execHeldMoveCarryOut, h, hm, due, carryOutHeld, ready]
  exact if_neg (by simpa [isSlot] using hk)

/-- Without room on the node's queue the LOAN MOVED stays pending. -/
theorem finish_offerMoved_noRoom (hw : s.waits = []) (hs : s.Settled) (room : ¬s.placeable l.borrower) :
    finish (offerLoanNotices l.borrower (s.setLoan k (l.movedTo b via)).oweScan) = s.setLoan k (l.movedTo b via) := by
  rw [offerLoanNotices_noRoom (s := (s.setLoan k _).oweScan) room]
  exact finish_oweScan hw hs

/-- With room on the node's queue the LOAN MOVED is placed. -/
theorem finish_offerMoved_room (hk : k < Config.slots) (h : s.loan k = some l) (active : l.state = .active) (hw : s.waits = [])
    (hs : s.Settled) (alone : s.NoOtherNotice k l) (room : s.placeable l.borrower) :
    finish (offerLoanNotices l.borrower (s.setLoan k (l.movedTo b via)).oweScan) =
      (s.setLoan k { l.movedTo b via with notice := none }).setLink l.borrower ((s.link l.borrower).placing
        { tag := 0, record := .loanMoved { slot := k, issue := (s.slot k).issue } b }) := by
  let u : State := (s.setLoan k (l.movedTo b via)).oweScan
  let t : State := (s.setLoan k { l.movedTo b via with notice := none }).setLink l.borrower ((s.link l.borrower).placing
    { tag := 0, record := .loanMoved { slot := k, issue := (s.slot k).issue } b })
  have lt := s.slot_lt_of_loan k l h
  have loan : u.loan k = some (l.movedTo b via) := State.loan_setLoan_self (s := s) _ lt
  have other (v : State) (x : Loan) (hv : v.loans = (s.setLoan k x).loans) (j : Nat) (hj : j < Config.slots) (ne : j ≠ k) :
      v.noticeOf l.borrower j = false := by
    refine noticeOf_none fun y hy => alone j y hj ne ?_
    have same : v.loan j = (s.setLoan k x).loan j := by simp only [State.loan, State.slot, hv]
    rwa [same, State.loan, State.setLoan, State.slot_setSlot_ne _ _ _ _ ne.symm] at hy
  have placed : placeLoanNotice k u = t.oweScan := by
    rw [placeLoanNotice_moved loan rfl room.1]
    show (((s.setLoan k _).setLoan k { l.movedTo b via with notice := none }).setLink l.borrower ((s.link l.borrower).placing
      { tag := 0, record := .loanMoved { slot := k, issue := ((s.setLoan k (l.movedTo b via)).slot k).issue } b })).oweScan = _
    rw [State.setLoan_setLoan, State.issue_setLoan]
  have offered : offerLoanNotices l.borrower u = t.oweScan :=
    offerLoanNotices_one hk room (by simp [State.noticeOf, loan, Loan.noticeDue, Loan.movedTo, active]) placed
      (fun j hj => other u _ rfl j (hj.trans hk) hj.ne) fun j hj hj' => other t.oweScan _ rfl j hj' hj.ne'
  rw [offered]
  exact finish_oweScan (s := t) hw hs

end

/-- A bay whose state is not the one of an absent bay is a bay of the table. -/
theorem lt_of_ready {s : State} {b : Nat} (h : (s.bay b).state = .ready) : b < s.bays.length := by
  by_contra out
  rw [State.bay, List.getD_eq_default _ _ (Nat.le_of_not_lt out)] at h
  exact absurd h (by decide)

/-! ### Only an ACTIVE loan holds a move (R15, R20) -/

/-- R1: a pin reset and RESET SHELF leave no loan. -/
theorem warmReset_movesActive (s : State) : (warmReset s).MovesActive :=
  movesActive_of_noLoan fun x hx => by
    rw [warmReset_loans] at hx
    obtain ⟨y, _, rfl⟩ := List.mem_map.mp hx
    rfl

/-- Every handling keeps that only an ACTIVE loan holds a move. -/
theorem exec_movesActive (c : Instr) {s t : State} (h : s.MovesActive) (e : exec c s = .next t) : t.MovesActive := by
  by_cases r : isReset c = false
  · exact Chain.movesActive (exec_chain c s r t e) h
  cases c <;> simp only [isReset, not_true_eq_false] at r
  case powerOn =>
    obtain rfl : powerOn s = t := Host.Outcome.next.inj e
    refine movesActive_of_noLoan fun x hx => ?_
    rw [powerOn_loans] at hx
    rw [List.eq_of_mem_replicate hx]
  case pinReset =>
    obtain rfl : warmReset _ = t := Host.Outcome.next.inj e
    exact warmReset_movesActive _
  case resetShelf =>
    change execResetShelf s = _ at e
    unfold execResetShelf at e
    split at e
    · cases e; exact h
    · obtain rfl := Host.Outcome.next.inj e
      exact warmReset_movesActive _

/-- Settles O46: the commands join the new bay's ring in their order (`foldl_queueCommand`), LOAN MOVED is offered
(`finish_offerMoved_noRoom`, `finish_offerMoved_room`), and every handling keeps that only an ACTIVE loan holds a move. -/
theorem heldMoveCarriedOut : Obligations.HeldMoveCarriedOut := by
  refine ⟨fun s k l m settled hk loan active move idle ready via waits away alone => ?_,
    fun s k l m x settled hk loan active move idle ready via waits member busy queued apart new quiet alone => ?_,
    movesActive_of_noLoan fun x hx => ?_, fun s t h e => ?_⟩
  · have leaves : ringLeave l.placedBay (.loan k) s = s := by
      refine State.modBay_same s l.placedBay ?_
      rw [List.filter_eq_self.mpr fun y hy => by simpa using away y hy]
    have refs : (s.bay l.placedBay).ring.filter (fun y => y.who == .loan k) = [] :=
      List.filter_eq_nil_iff.mpr fun y hy => by simpa using away y hy
    rw [exec_heldMoveCarryOut hk loan move idle ready, carryOutMove_eq loan via, refs, leaves]
    exact ⟨fun room => congrArg _ (finish_offerMoved_noRoom waits settled room),
      fun room => congrArg _ (finish_offerMoved_room hk loan active waits settled alone room)⟩
  · let u : State := (ringLeave l.placedBay (.loan k) s).setLoan k (l.movedTo m.bay m.via)
    let v : State := (ringLeave l.placedBay (.loan k) s).joined m.bay k l.cls x.queued
    have bay : u.bay m.bay = s.bay m.bay := State.bay_setBay_ne s _ _ _ apart
    have joins : x.queued.foldl (fun s ref => queueCommand m.bay k ref s) u = u.joined m.bay k l.cls x.queued := by
      refine foldl_queueCommand (s := u) (State.loan_setLoan_self _ (s.slot_lt_of_loan k l loan)) ?_ (bay ▸ new) x.queued
        (fun ref hr r found => ?_) busy (bay ▸ quiet)
      · simpa [u, ringLeave] using lt_of_ready ready
      · obtain ⟨q, hq, state⟩ := queued ref hr
        rwa [Option.some.inj (found.symm.trans hq)]
    rw [exec_heldMoveCarryOut hk loan move idle ready, carryOutMove_eq loan via, member, List.flatMap_singleton, joins]
    exact ⟨fun room => congrArg _ (finish_offerMoved_noRoom (s := v) waits settled room),
      fun room => congrArg _ (finish_offerMoved_room (s := v) hk loan active waits settled alone room)⟩
  · rw [List.eq_of_mem_replicate hx]
  · rcases step_cases e with rfl | ⟨c, rest, _, e⟩
    · exact h
    · exact exec_movesActive c (s := { s with pending := rest }) h e

end Sys2Proof.Machine
end

section
/-! PROOFS. What grants and departures from the wait list leave alone, and what the removal of entries leaves. -/

namespace Sys2Proof.Machine

/-! ### What a chain of grants leaves alone -/

/-- An end leaves every bay as it is, or drops a queued command from the ring of one. -/
theorem EndMove.bays_cases {s t : State} (m : EndMove s t) :
    t.bays = s.bays ∨ ∃ b ref, t.bays = (s.modBay b (Bay.dropping ref)).bays := by
  cases m with
  | place l o => exact .inl (place_bays l o s)
  | placeReserved l o => exact .inl (placeReserved_bays l o s)
  | giveBack ref n => exact .inl (giveBack_bays ref n s)
  | drop b ref => exact .inr ⟨b, ref, rfl⟩
  | _ => exact .inl rfl

/-- A bay after a change of one: the changed bay, or the bay as it was. -/
theorem State.bay_modBay_cases (s : State) (b c : Nat) (f : Bay → Bay) :
    (s.modBay b f).bay c = f (s.bay c) ∨ (s.modBay b f).bay c = s.bay c := by
  by_cases e : b = c
  · subst e
    by_cases h : b < s.bays.length
    · exact .inl (State.bay_setBay_self _ _ _ h)
    · exact .inr (by rw [State.modBay, State.setBay, List.set_eq_of_length_le (Nat.le_of_not_lt h)])
  · exact .inr (State.bay_setBay_ne _ _ _ _ e)

/-- A change that every dropping of a queued command from a ring makes hold of each bay, an end makes hold of it. -/
theorem EndMove.bay {s t : State} (m : EndMove s t) (p : Bay → Bay → Prop) (same : ∀ x, p x x)
    (drop : ∀ ref x, p x (x.dropping ref)) (c : Nat) : p (s.bay c) (t.bay c) := by
  rcases m.bays_cases with e | ⟨b, ref, e⟩
  · have : t.bay c = s.bay c := by simp only [State.bay, e]
    exact this ▸ same _
  · have : t.bay c = (s.modBay b (Bay.dropping ref)).bay c := by simp only [State.bay, e]
    rw [this]
    rcases s.bay_modBay_cases b c (Bay.dropping ref) with e | e <;> rw [e]
    · exact drop ref _
    · exact same _

/-- What no grant and no departure from the wait list does to a bay: it changes the ring alone, where it adds nothing and drops no
member without a queued command. -/
structure RingOnly (x y : Bay) : Prop where
  others : { y with ring := [] } = { x with ring := [] }
  empty  : x.ring = [] → y.ring = []
  keeps  : ∀ m ∈ x.ring, m.queued = [] → m ∈ y.ring

theorem RingOnly.refl (x : Bay) : RingOnly x x := ⟨rfl, id, fun _ h _ => h⟩

theorem RingOnly.trans {x y z : Bay} (a : RingOnly x y) (b : RingOnly y z) : RingOnly x z :=
  ⟨b.others.trans a.others, fun h => b.empty (a.empty h), fun m h q => b.keeps m (a.keeps m h q) q⟩

theorem RingOnly.dropping (ref : CommandRef) (x : Bay) : RingOnly x (x.dropping ref) :=
  ⟨rfl, fun h => by simp [h], fun m h q => List.mem_filterMap.mpr ⟨m, h, by simp [Member.without, q]⟩⟩

/-- A bay with an empty ring stays as it is. -/
theorem RingOnly.eq {x y : Bay} (h : RingOnly x y) (e : x.ring = []) : y = x := by
  have same (z : Bay) (hz : z.ring = []) : z = { z with ring := [] } := by rw [← hz]
  rw [same y (h.empty e), h.others, ← same x e]

/-- The parts of the state that no grant and no departure from the wait list touches. -/
structure GrantFrame (s t : State) : Prop where
  waits     : t.waits.Sublist s.waits
  spinQueue : t.spinQueue = s.spinQueue
  channels  : t.channels = s.channels
  notices   : t.notices = s.notices
  bays      : ∀ b, RingOnly (s.bay b) (t.bay b)

theorem GrantFrame.refl (s : State) : GrantFrame s s := ⟨.refl _, rfl, rfl, rfl, fun _ => .refl _⟩

theorem GrantFrame.trans {s t u : State} (a : GrantFrame s t) (b : GrantFrame t u) : GrantFrame s u :=
  ⟨b.waits.trans a.waits, b.spinQueue.trans a.spinQueue, b.channels.trans a.channels, b.notices.trans a.notices,
    fun c => (a.bays c).trans (b.bays c)⟩

theorem GrantMove.frame {s t : State} (m : GrantMove s t) : GrantFrame s t := by
  cases m with
  | ends m =>
    have f := m.frame
    exact ⟨f.waits ▸ .refl _, f.spinQueue, f.channels, f.notices, m.bay RingOnly RingOnly.refl RingOnly.dropping⟩
  | waits ws h => exact ⟨h, rfl, rfl, rfl, fun _ => .refl _⟩
  | _ => exact ⟨.refl _, rfl, rfl, rfl, fun _ => .refl _⟩

theorem GrantChain.frame {s t : State} (c : GrantChain s t) : GrantFrame s t := by
  induction c with
  | refl => exact .refl s
  | tail _ m ih => exact ih.trans m.frame

/-- A field that does not rest on the ring is as it was. -/
theorem RingOnly.field {α : Type} {x y : Bay} (h : RingOnly x y) (f : Bay → α) (hf : ∀ z, f z = f { z with ring := [] }) :
    f y = f x := by
  rw [hf y, h.others, ← hf x]

/-! ### The removal of entries (R37, R38, R39) -/

/-- What is left on the wait list. -/
theorem removeWaits_waits (p : WaitEntry → Bool) (reason : NodeReason) (s : State) :
    (removeWaits p reason s).waits = s.waits.filter fun e => !p e := by
  unfold removeWaits
  dsimp only
  split
  · rename_i none
    have kept : ∀ e ∈ s.waits, p e = false := by simpa using none
    exact (List.filter_eq_self.mpr fun e he => by simp [kept e he]).symm
  · exact (EndChain.frame (foldl_chain _ (fun s e => refuseEntry_chain e reason s) _ _)).waits

theorem State.noWaitOn.of_sublist {s t : State} {b : Nat} (h : s.noWaitOn b) (c : t.waits.Sublist s.waits) : t.noWaitOn b :=
  fun e he => h e (c.subset he)

theorem removeWaitsOn_noWaitOn (b : Nat) (reason : NodeReason) (s : State) : (removeWaitsOn b reason s).noWaitOn b := by
  intro e he
  rw [removeWaitsOn, removeWaits_waits] at he
  simpa using (List.mem_filter.mp he).2

/-- R37: an entry that is refused is answered in its node's reservation. -/
theorem refuseEntry_placed {e : WaitEntry} {s : State} (hp : (s.link e.node).presence = true)
    (hr : 0 < (s.link e.node).reserved) (reason : NodeReason) :
    (refuseEntry e reason s).HasPlaced e.node { tag := e.tag, record := .refused reason } := by
  have rest (u : State) : Grows u (recomputeAgainst e u).oweScan :=
    (GrantChain.grows (recomputeAgainst_chain e u).grant).trans (oweScan_grows _)
  refine (rest _).hasPlaced ?_
  rw [placeReserved_eq hp hr, State.HasPlaced, State.link_setLink_self _ _ _ (link_lt_of_presence hp)]
  exact List.mem_append_right _ (List.mem_singleton.mpr rfl)

/-- The first of the entries that are removed is answered in its node's reservation. -/
theorem removeWaits_placed {p : WaitEntry → Bool} {s : State} {e : WaitEntry} (first : s.waits.find? p = some e)
    (hp : (s.link e.node).presence = true) (hr : 0 < (s.link e.node).reserved) (reason : NodeReason) :
    (removeWaits p reason s).HasPlaced e.node { tag := e.tag, record := .refused reason } := by
  obtain ⟨rest, gone⟩ : ∃ rest, s.waits.filter p = e :: rest := by
    rw [← List.head?_filter] at first
    exact ⟨_, (List.cons_head?_tail first).symm⟩
  have others (u : State) : Grows u (rest.foldl (fun s e => refuseEntry e reason s) u) :=
    GrantChain.grows (foldl_chain _ (fun s e => (refuseEntry_chain e reason s).grant) _ _)
  unfold removeWaits
  rw [gone]
  exact (others _).hasPlaced (refuseEntry_placed (s := { s with waits := s.waits.filter fun e => !p e }) hp hr reason)

/-- R33, R38: what the removal of bay `b`'s entries and the scan that it owes leave. -/
theorem finish_removeWaitsOn (b : Nat) (reason : NodeReason) (s : State) :
    GrantFrame s (finish (removeWaitsOn b reason s).oweScan) ∧ (finish (removeWaitsOn b reason s).oweScan).noWaitOn b := by
  have scan : GrantChain (removeWaitsOn b reason s) (finish (removeWaitsOn b reason s).oweScan) :=
    .trans (GrantMove.ends (.owe _)).chain (finish_chain _)
  exact ⟨GrantChain.frame ((removeWaitsOn_chain b reason s).trans scan),
    (removeWaitsOn_noWaitOn b reason s).of_sublist (GrantChain.frame scan).waits⟩

end Sys2Proof.Machine
end

section
/-! PROOFS. WITHDRAW (O14). -/

namespace Sys2Proof.Machine

theorem exec_withdraw {s : State} {n : Nat} {f : Frame} (hn : isNode n = true) (h : s.CanTake n kindWithdraw 1 f) :
    exec (.withdraw n) s = .next (finish (withdrawAct n f (s.took n 1))) := h.onNode (needs := oneEntry) hn _

/-- A reservation made at the taking and released again. -/
theorem releaseReserved_took {s : State} {l : Nat} (hp : (s.link l).presence = true) (k : Nat) :
    releaseReserved l k (s.took l k) = s.setLink l (s.link l).taken := by
  have entries : (s.link l).reserved + k - k = (s.link l).reserved := Nat.add_sub_cancel ..
  rw [releaseReserved_eq, State.took, State.link_setLink_self _ _ _ (link_lt_of_presence hp), State.setLink_setLink]
  simp only [Link.reserving, entries]
  rfl

/-- The test by which a WITHDRAW of node `n` picks the entries under `tag` (R39). -/
def WaitEntry.named (n tag : Nat) (e : WaitEntry) : Bool := e.node == n && e.tag == tag

theorem WaitEntry.named_iff {n tag : Nat} {e : WaitEntry} : e.named n tag = true ↔ e.node = n ∧ e.tag = tag := by
  simp [WaitEntry.named]

/-- Settles O14: the checks answer at once; a WITHDRAW that names an entry removes what it names, the first of it answered in its
reservation (`removeWaits_placed`), and the scan that follows adds no entry. -/
theorem withdrawRemovesEntry : Obligations.WithdrawRemovesEntry := by
  intro s n f hn h
  have rejected (r : Reject) (act : withdrawAct n f (s.took n 1) = reject n f r (s.took n 1)) :
      exec (.withdraw n) s = .next (s.answer n f (.reject r.reason r.place r.offset kindWithdraw)) := by
    rw [exec_withdraw hn h, act, reject, finish_reply_took h.settled h.presence, h.isKind]
  refine ⟨fun short => ?_, fun long tag => ?_, fun long tag unnamed => ?_, fun long tag named reserved => ?_⟩
  · rw [rejected (rejectLength f.body 1) (if_pos short)]
    simp [rejectLength, Nat.lt_one_iff.mp short]
  · exact rejected rejectTag (by simp [withdrawAct, Nat.not_lt.mpr long, tag])
  · refine rejected rejectTarget ?_
    have none : ((s.took n 1).waits.any fun e => e.node == n && e.tag == field f.body 0 1) = false :=
      List.any_eq_false.mpr fun e he => by simpa using unnamed e he
    simp [withdrawAct, Nat.not_lt.mpr long, tag, none]
  · let target := field f.body 0 1
    let u := s.setLink n (s.link n).taken
    have some' : ((s.took n 1).waits.any fun e => e.node == n && e.tag == target) = true :=
      List.any_eq_true.mpr (named.imp fun e ⟨he, hn⟩ => ⟨he, WaitEntry.named_iff.mpr hn⟩)
    have act : withdrawAct n f (s.took n 1) = removeWaits (WaitEntry.named n target) .withdrawn u := by
      have released := releaseReserved_took (s := s) h.presence 1
      simp only [withdrawAct, Nat.not_lt.mpr long, tag, if_false, target, some', if_true, released]
      rfl
    refine ⟨_, (exec_withdraw hn h).trans (by rw [act]), ?_⟩
    have left : (finish (removeWaits (WaitEntry.named n target) .withdrawn u)).waits.Sublist
        (s.waits.filter fun e => !e.named n target) :=
      removeWaits_waits (WaitEntry.named n target) .withdrawn u ▸ (GrantChain.frame (finish_chain _)).waits
    refine ⟨fun e he hnamed => ?_, left.trans List.filter_sublist, (finish_grows _).hasPlaced ?_⟩
    · have unnamed := (List.mem_filter.mp (left.subset he)).2
      have named : e.named n target = true := WaitEntry.named_iff.mpr hnamed
      simp [named] at unnamed
    · obtain ⟨e, he, hnamed⟩ := named
      obtain ⟨x, first⟩ := Option.isSome_iff_exists.mp (List.find?_isSome.mpr ⟨e, he, WaitEntry.named_iff.mpr hnamed⟩)
      obtain ⟨rfl, tag⟩ := WaitEntry.named_iff.mp (List.find?_some first)
      have link : u.link x.node = (s.link x.node).taken := State.link_setLink_self _ _ _ h.lt
      rw [show field f.body 0 1 = x.tag from tag.symm]
      exact removeWaits_placed (s := u) first (link ▸ h.presence) (link ▸ reserved) .withdrawn

end Sys2Proof.Machine
end

section
/-! PROOFS. The presence line of a bay (O35). -/

namespace Sys2Proof.Machine

theorem onBay_eq {b : Nat} (hb : isBay b = true) (act : State → Result) (s : State) : onBay b act s = act s := if_pos hb

/-- A bay that is not as an absent bay is stands in the table. -/
theorem State.bay_lt_of_ne {α : Type} {s : State} {b : Nat} (f : Bay → α) (h : f (s.bay b) ≠ f Bay.initial) :
    b < s.bays.length := by
  by_contra out
  exact h (congrArg f (List.getD_eq_default _ _ (Nat.le_of_not_lt out)))

theorem State.bay_modBay_self {s : State} {b : Nat} (h : b < s.bays.length) (f : Bay → Bay) :
    (s.modBay b f).bay b = f (s.bay b) := State.bay_setBay_self _ _ _ h

/-- R121, R184: a bay that changes state, among other fields. -/
theorem setBayState_modBay {s : State} {b : Nat} (h : b < s.bays.length) (st : BayState) (f : Bay → Bay) :
    setBayState b st (s.modBay b f) =
      { s.modBay b (fun x => { f x with state := st }) with notices := s.bayNotice b } := by
  show occur .bay b .none ((s.modBay b f).modBay b fun x => { x with state := st }) = _
  rw [State.modBay_modBay h]
  rfl

/-- R123: what a rise of presence comes to, by the bay's state and profile. -/
theorem exec_bayPresenceRise {s : State} {b : Nat} (hb : isBay b = true) (h : b < s.bays.length)
    (low : (s.bay b).presence = false) :
    exec (.bayPresenceRise b) s = .next (if (s.bay b).state = .empty then seated b (s.modBay b fun x => { x with presence := true })
      else s.modBay b fun x => { x with presence := true }) := by
  show execBayPresenceRise b s = _
  rw [execBayPresenceRise, onBay_eq hb, low]
  simp only [Bool.false_eq_true, if_false, State.bay_modBay_self h]

/-- R124: a fall of presence ends with the scan that it owes. -/
theorem exec_bayPresenceFall {s : State} {b : Nat} (hb : isBay b = true) (high : (s.bay b).presence = true) :
    exec (.bayPresenceFall b) s = .next (finish (pulled b (s.modBay b fun x => { x with presence := false }))) := by
  show execBayPresenceFall b s = _
  rw [execBayPresenceFall, onBay_eq hb, if_pos high]

/-- R124: a bay in EMPTY, its items cleared and its presence line low. -/
def Bay.vacated (x : Bay) : Bay := { x.emptied none with presence := false, state := .empty }

/-- R124: the entry into EMPTY of a bay whose presence has fallen. -/
theorem enterEmpty_eq {s : State} {b : Nat} (h : b < s.bays.length) :
    enterEmpty b (s.modBay b fun x => { x with presence := false }) =
      { s.modBay b Bay.vacated with notices := s.bayNotice b } := by
  rw [enterEmpty, State.modBay_modBay h, setBayState_modBay h]
  rfl

/-- R124, R38: the fall of presence on a bay in SPIN_WAIT or SPINNING, whatever the spin queue `q` that it leaves. -/
theorem finish_pulledAwaited {s : State} {b : Nat} (h : b < s.bays.length) (q : List Nat) :
    let t := finish (pulledAwaited b { s.modBay b (fun x => { x with presence := false }) with spinQueue := q })
    { t.bay b with ring := [] } = { (s.bay b).vacated with ring := [] } ∧ t.noWaitOn b ∧ t.spinQueue = q ∧
      t.notices = s.bayNotice b ∧ s.refusedOn b .noBay t := by
  intro t
  have entered := enterEmpty_eq (s := { s with spinQueue := q }) h
  obtain ⟨frame, clear⟩ := finish_removeWaitsOn b .noBay
    (enterEmpty b (({ s with spinQueue := q } : State).modBay b fun x => { x with presence := false }))
  refine ⟨(frame.bays b).others.trans ?_, clear, frame.spinQueue, frame.notices,
    refusedOn_grows (refusedOn_calm ?_ (pulledAwaited_refusedOn b _)) (finish_grows _)⟩
  · rw [entered]
    have bay : ({ ({ s with spinQueue := q } : State).modBay b Bay.vacated with notices := s.bayNotice b } : State).bay b =
        (s.bay b).vacated := State.bay_setBay_self s b _ h
    exact congrArg (fun x : Bay => { x with ring := [] }) bay
  · exact .of_parts rfl rfl rfl rfl rfl

/-- Settles O35: a rise by `exec_bayPresenceRise`; a fall enters EMPTY (`enterEmpty_eq`), and from SPIN_WAIT and SPINNING the
bay's wait entries are removed (`finish_pulledAwaited`). -/
theorem bayPresenceMoves : Obligations.BayPresenceMoves := by
  refine ⟨fun s b hb h low => ⟨fun empty enabled => ?_, fun empty disabled => ?_, fun seated => ?_⟩,
    fun s b hb high => ⟨fun awaited => ?_, fun settled idle => ?_⟩⟩
  · have enters : seated b (s.modBay b fun x => { x with presence := true }) =
        enterSpinWait b (s.modBay b fun x => { x with presence := true }) := if_pos enabled
    rw [exec_bayPresenceRise hb h low, if_pos empty, enters, enterSpinWait, State.modBay_modBay h, setBayState_modBay h]
    rfl
  · have stays : seated b (s.modBay b fun x => { x with presence := true }) =
        (s.modBay b fun x => { x with presence := true }).modBay b fun x => { x with faultCause := none } :=
      if_neg (Bool.eq_false_iff.mp disabled)
    rw [exec_bayPresenceRise hb h low, if_pos empty, stays, State.modBay_modBay h]
  · rw [exec_bayPresenceRise hb h low, if_neg seated]
  · have h : b < s.bays.length := State.bay_lt_of_ne Bay.presence (by rw [high]; decide)
    have bay := State.bay_modBay_self h fun x => { x with presence := false }
    refine ⟨_, exec_bayPresenceFall hb high, ?_⟩
    rcases awaited with waiting | spinning
    · obtain ⟨same, clear, queue, notice, refused⟩ := finish_pulledAwaited h (s.spinQueue.filter fun x => x != b)
      have out : b ∉ s.spinQueue.filter fun x => x != b := by simp
      rw [pulled, bay]
      simp only [waiting]
      exact ⟨same, clear, fun _ hq => out (queue.subst (motive := (b ∈ ·)) hq), notice, refused⟩
    · obtain ⟨same, clear, -, notice, refused⟩ := finish_pulledAwaited h s.spinQueue
      rw [pulled, bay]
      simp only [spinning]
      exact ⟨same, clear, fun e => by simp at e, notice, refused⟩
  · have h : b < s.bays.length := State.bay_lt_of_ne Bay.presence (by rw [high]; decide)
    have bay := State.bay_modBay_self h fun x => { x with presence := false }
    have enters : pulled b (s.modBay b fun x => { x with presence := false }) =
        enterEmpty b (s.modBay b fun x => { x with presence := false }) := by
      rw [pulled, bay]
      rcases idle with e | e | e <;> simp only [e]
    rw [exec_bayPresenceFall hb high, enters, enterEmpty_eq h]
    exact congrArg _ (finish_of_settled settled)

end Sys2Proof.Machine
end

section
/-! PROOFS. A bay that spins up becomes READY, and grants a request that waits for it, or faults (O38). -/

namespace Sys2Proof.Machine

/-! ### A grant by the scan (R33 to R36) -/

/-- R35, R36: the walk grants an entry that is grantable. -/
theorem scanFrom_grant {s : State} {e : WaitEntry} {kept : List WaitEntry} {k : Nat} (rest : List WaitEntry)
    (unmasked : e.masked = false) (awaitable : (s.bay e.bay).state.awaitable = true) (target : s.isTwinTarget e.bay = false)
    (inside : rangeOutside (s.bay e.bay).capacity e.range = false) (grantable : s.grantable kept e = true)
    (free : s.freeSlotNumber = some k) :
    scanFrom kept (e :: rest) s = scanFrom kept rest (recomputeAgainst e (makeLoan k e.node e.tag e.bay e.kind e.cls
      (clampRange (s.bay e.bay).capacity e.range) { s with waits := kept ++ rest })) := by
  simp [scanFrom, unmasked, awaitable, target, inside, grantable, free]

/-- R33: the scan that a handling owes walks the wait list. -/
theorem finish_scan {s : State} {ws : List WaitEntry} (h : s.waits = ws) :
    finish s.oweScan = { scanFrom [] ws s.oweScan with scanDue := false } := by
  subst h
  exact if_pos rfl

/-- A bay that no twin record names as its source or target. -/
def State.untwinned (s : State) (b : Nat) : Prop := ∀ w, some w ∈ s.twins → w.source ≠ b ∧ w.target ≠ b

section
variable {s : State} {b : Nat}

theorem State.untwinned.isTwinTarget (h : s.untwinned b) : s.isTwinTarget b = false :=
  List.any_eq_false.mpr fun t ht => by
    cases t with
    | none => simp
    | some w => simpa using (h w ht).2

theorem State.untwinned.conflictsCopying (h : s.untwinned b) (kind : LoanKind) (range : Option Range) :
    s.conflictsCopying b kind range = false := by
  have none : (s.twins.any fun t => match t with
      | some w => w.state == .copying && w.source == b && overlaps range (some ⟨w.first, w.last⟩)
      | none => false) = false := List.any_eq_false.mpr fun t ht => by
    cases t with
    | none => simp
    | some w => simp [(h w ht).1]
  rw [State.conflictsCopying]
  refine Bool.and_eq_false_iff.mpr (.inr (Eq.trans ?_ none))
  rfl

theorem State.untwinned.placementTwin (h : s.untwinned b) (kind : LoanKind) (range : Option Range) :
    s.placementTwin b kind range = none := by
  cases e : s.placementTwin b kind range with
  | none => rfl
  | some p =>
    obtain ⟨w, hw, source⟩ := placementTwin_source e
    exact absurd source (h w (State.mem_twins_of_twin hw)).1

end

/-- R52: without pressure the hold limit is the hold base. -/
theorem holdLimitOf_zero (h m : Nat) : holdLimitOf h m 0 = h := by
  simp only [holdLimitOf]
  omega

/-- R3, R10, R52: the loan that a grant makes on a bay that no twin record names, with no entry left to wait. -/
theorem newLoan_alone {s : State} {bay : Nat} (free : s.untwinned bay) (waits : s.waits = []) (n : Nat) (kind : LoanKind)
    (cls : Cls) (range : Option Range) : s.newLoan n bay kind cls range =
      { borrower := n, askedBay := bay, placedBay := bay, viaTwin := none, kind := kind, cls := cls, range := range
        state := .active, endReason := none, holdBase := (s.nodeEntry n).holdBase, holdLimit := (s.nodeEntry n).holdBase
        idle := 0, commands := 0, notice := none, returnTag := none, move := none } := by
  simp only [State.newLoan, free.placementTwin, waits, List.countP_nil, holdLimitOf_zero]
  rfl

/-- R8: a range that begins inside the capacity is lowered to its last block. -/
theorem clampRange_inside {capacity : Nat} {range : Option Range} (h : ∀ r, range = some r → r.first < capacity) :
    clampRange (some capacity) range = range.map fun r => { r with last := min r.last (capacity - 1) } := by
  cases range with
  | none => rfl
  | some r =>
    have first := h r rfl
    simp only [clampRange, first, true_and, Option.map_some]
    split
    · rw [Nat.min_eq_right (by omega)]
    · rw [Nat.min_eq_left (by omega)]

theorem State.setLoan_same {s : State} {k : Nat} {l : Loan} (h : s.loan k = some l) : s.setLoan k l = s := by
  have slot : { s.slot k with loan := some l } = s.slot k := by rw [← h]; rfl
  rw [State.setLoan, slot, State.setSlot, State.slot, set_getD_same]

/-- R53: a recompute that finds the hold limit as it stands, above the idle clock. -/
theorem recompute_same {s : State} {k : Nat} {l : Loan} (h : s.loan k = some l) (limit : s.holdLimit l = l.holdLimit)
    (short : l.idle < l.holdLimit) : recompute k s = s := by
  simp only [recompute, h, limit]
  rw [if_neg fun c => Nat.not_le.mpr short c.2]
  exact State.setLoan_same h

/-- A recompute against an entry that conflicts with no loan but that in slot `k`, whose own changes nothing. -/
theorem recomputeAgainst_own {s : State} {e : WaitEntry} {k : Nat} (own : recompute k s = s)
    (others : ∀ j l, j ≠ k → s.loan j = some l → s.conflictsLoan e.bay e.kind e.range l = false) :
    recomputeAgainst e s = s := by
  unfold recomputeAgainst
  split
  · rfl
  · refine eachSlot_same fun j => ?_
    by_cases at_ : j = k
    · subst at_
      split
      · split
        · exact own
        · rfl
      · rfl
    · split
      · rename_i l hl
        rw [if_neg (by simp [others j l at_ hl])]
      · rfl

/-- The state after the grant of entry `e` in slot `k`, on a bay without a twin record, there being no other entry. -/
def State.grantedAlone (s : State) (k : Nat) (e : WaitEntry) (range : Option Range) : State :=
  let l := s.newLoan e.node e.bay e.kind e.cls range
  (s.setSlot k (s.newSlot k l)).setLink e.node ((s.link e.node).replying { tag := e.tag, record := s.grantedOf k l })

section
variable {s : State} {e : WaitEntry} {k : Nat}

/-- R36, R161: such a grant makes no record STALE. -/
theorem makeLoan_alone (free : s.untwinned e.bay) (presence : (s.link e.node).presence = true)
    (reserved : 0 < (s.link e.node).reserved) (range : Option Range) :
    makeLoan k e.node e.tag e.bay e.kind e.cls range s = s.grantedAlone k e range := by
  have placed := placeReserved_eq
    (s := s.setSlot k (s.newSlot k (s.newLoan e.node e.bay e.kind e.cls range))) presence reserved
    { tag := e.tag, record := s.grantedOf k (s.newLoan e.node e.bay e.kind e.cls range) }
  rw [makeLoan_eq]
  dsimp only
  rw [placed]
  split
  · exact staleTwins_none fun w hw _ source => absurd source (free w hw).1
  · rfl

/-- R51, R53: the recompute that follows such a grant changes nothing: no other loan conflicts with the entry, and the new loan's
hold limit is its hold base. -/
theorem recomputeAgainst_alone (free : s.untwinned e.bay) (waits : s.waits = []) (hk : k < s.loans.length)
    (clear : s.conflictsTable e.bay e.kind e.range = false) (base : 0 < (s.nodeEntry e.node).holdBase) (range : Option Range) :
    recomputeAgainst e (s.grantedAlone k e range) = s.grantedAlone k e range := by
  have loan : (s.grantedAlone k e range).loan k = some (s.newLoan e.node e.bay e.kind e.cls range) :=
    congrArg Slot.loan (State.slot_setSlot_self s k _ hk)
  have alone := newLoan_alone free waits e.node e.kind e.cls range
  refine recomputeAgainst_own (k := k) (recompute_same loan ?_ ?_) fun j l ne hl => ?_
  · exact (holdLimit_newLoan s e.node e.bay e.kind e.cls range)
  · rw [alone]; exact base
  · have before : s.loan j = some l := (congrArg Slot.loan (State.slot_setSlot_ne s k j _ ne.symm)).symm.trans hl
    have apart : s.conflictsLoan e.bay e.kind e.range l = false := conflictsLoan_of_table clear before
    exact apart

end

/-! ### A bay that becomes READY, or faults (R129, R130) -/

/-- R130: a bay that has answered IDENTIFY with a capacity, under profile `p`. -/
def Bay.readied (p : Profile) (capacity : Nat) (x : Bay) : Bay :=
  { x with
    state := .ready, capacity := some capacity, head := 0, faultCause := none, op := none, opTimer := 0, opLimit := 0
    weak := x.weak.filter (fun n => n < capacity), cursor := if capacity ≤ x.cursor then 0 else x.cursor, upkeepDue := false
    upkeepTimer := upkeepStart p, ring := [], deferral := 0, chosen := none, chunkWrite := none }

/-- R130: the state after bay `b` has become READY. -/
def State.readied (s : State) (b capacity : Nat) : State :=
  { s.modBay b (Bay.readied (s.profile b) capacity) with notices := s.bayNotice b }

section
variable {s : State} {b : Nat}

theorem becomeReady_eq (h : b < s.bays.length) (capacity : Nat) : becomeReady b capacity s = (s.readied b capacity).oweScan := by
  rw [becomeReady, setBayState_modBay h]
  rfl

theorem State.readied_bay (h : b < s.bays.length) (capacity : Nat) :
    (s.readied b capacity).bay b = (s.bay b).readied (s.profile b) capacity := State.bay_modBay_self h _

theorem lt_of_op {op : DiskOp} (h : (s.bay b).op = some op) : b < s.bays.length :=
  State.bay_lt_of_ne Bay.op (by rw [h]; exact Option.some_ne_none op)

/-- R130: the answer to the IDENTIFY in progress. -/
theorem exec_identifyAnswer (hb : isBay b = true) (op : (s.bay b).op = some .identify) {capacity : Nat}
    (range : capacity ≤ 4294967295) :
    exec (.identifyAnswer b (s.bay b).opNumber capacity) s =
      .next (finish (if capacity = 0 then badIdentify b s else becomeReady b capacity s)) := by
  have answers : s.answers b (s.bay b).opNumber isIdentify = true := by simp [State.answers, op, isIdentify]
  show execIdentifyAnswer b _ capacity s = _
  rw [execIdentifyAnswer, onBay_eq hb, if_neg (by simpa [isCapacity] using range), if_pos answers]

/-- R129, R38: a bay that faults from SPINNING, its wait entries removed. -/
theorem finish_spinFault (h : b < s.bays.length) (cause : FaultCause) :
    let t := finish (spinFault b cause s)
    (t.bay b).state = .faulted ∧ (t.bay b).faultCause = some cause ∧ (t.bay b).capacity = (s.bay b).capacity ∧
      (t.bay b).op = none ∧ t.noWaitOn b ∧ s.refusedOn b .noBay t ∧ t.notices = s.bayNotice b := by
  intro t
  obtain ⟨frame, clear⟩ := finish_removeWaitsOn b .noBay
    (setBayState b .faulted (s.modBay b fun x => { x.opOver with faultCause := some cause }))
  have entered := setBayState_modBay h .faulted fun x => { x.opOver with faultCause := some cause }
  have bay : (setBayState b .faulted (s.modBay b fun x => { x.opOver with faultCause := some cause })).bay b =
      { (s.bay b).opOver with faultCause := some cause, state := .faulted } := by
    rw [entered]
    exact State.bay_setBay_self s b _ h
  have only := frame.bays b
  rw [bay] at only
  exact ⟨only.field Bay.state fun _ => rfl, only.field Bay.faultCause fun _ => rfl, only.field Bay.capacity fun _ => rfl,
    only.field Bay.op fun _ => rfl, clear, refusedOn_grows (spinFault_refusedOn b cause s) (finish_grows _), frame.notices⟩

/-- R129: a bay that faults BAD_IDENTIFY has no known capacity. -/
theorem finish_badIdentify (h : b < s.bays.length) :
    let t := finish (badIdentify b s)
    (t.bay b).state = .faulted ∧ (t.bay b).faultCause = some .badIdentify ∧ (t.bay b).capacity = none ∧
      (t.bay b).op = none ∧ t.noWaitOn b ∧ s.refusedOn b .noBay t ∧ t.notices = s.bayNotice b := by
  intro t
  obtain ⟨state, cause, capacity, op, clear, refused, notices⟩ :=
    finish_spinFault (s := s.modBay b fun x => { x with capacity := none }) (by simpa using h) .badIdentify
  rw [State.bay_modBay_self h] at capacity
  exact ⟨state, cause, capacity, op, clear, refusedOn_calm (modBay_calm _ _ _) refused, notices⟩

/-- R33 to R36: the scan after the bay has become READY grants the one entry, which waited for it. -/
theorem finish_readied_grant {e : WaitEntry} {k capacity : Nat} (h : e.bay < s.bays.length) (waits : s.waits = [e])
    (unmasked : e.masked = false) (free : s.untwinned e.bay) (inside : ∀ r, e.range = some r → r.first < capacity)
    (clear : s.conflictsTable e.bay e.kind e.range = false) (number : s.freeSlotNumber = some k) (hk : k < s.loans.length)
    (base : 0 < (s.nodeEntry e.node).holdBase) (presence : (s.link e.node).presence = true)
    (reserved : 0 < (s.link e.node).reserved) :
    finish (s.readied e.bay capacity).oweScan =
      { ({ (s.readied e.bay capacity).oweScan with waits := [] } : State).grantedAlone k e
          (clampRange (some capacity) e.range) with scanDue := false } := by
  let u : State := (s.readied e.bay capacity).oweScan
  let v : State := { u with waits := [] }
  have bay : u.bay e.bay = (s.bay e.bay).readied (s.profile e.bay) capacity := State.readied_bay h capacity
  have grantable : u.grantable [] e = true := by
    have copying := State.untwinned.conflictsCopying (s := u) free e.kind e.range
    have table : u.conflictsTable e.bay e.kind e.range = false := clear
    simp [State.grantable, bay, Bay.readied, copying, table]
  have outside : rangeOutside (u.bay e.bay).capacity e.range = false := by
    rw [bay]
    cases range : e.range with
    | none => rfl
    | some r => simpa [rangeOutside, Bay.readied] using inside r range
  have made := makeLoan_alone (s := v) (k := k) free presence reserved (clampRange (some capacity) e.range)
  have same := recomputeAgainst_alone (s := v) free rfl hk clear base (clampRange (some capacity) e.range)
  have granted : scanFrom [] [e] u = v.grantedAlone k e (clampRange (some capacity) e.range) := by
    rw [scanFrom_grant (s := u) [] unmasked (by rw [bay]; rfl) (State.untwinned.isTwinTarget (s := u) free) outside grantable
      number, bay]
    exact (congrArg (recomputeAgainst e) made).trans same
  rw [finish_scan (s := s.readied e.bay capacity) waits]
  exact congrArg (fun t : State => { t with scanDue := false }) granted

end

/-- Settles O38: SPIN UP's answer issues IDENTIFY; IDENTIFY's makes the bay READY (`becomeReady_eq`), whose scan grants the one entry
(`finish_readied_grant`), or faults it (`finish_badIdentify`), as does a timer (`finish_spinFault`). -/
theorem spinUpMakesReady : Obligations.SpinUpMakesReady := by
  refine ⟨fun s b number hb same => ?_, fun s b hb late => ⟨fun op => ?_, fun op => ?_⟩⟩
  · subst same
    refine ⟨fun op => ?_, fun capacity op pos range => ?_,
      fun capacity e k op pos range shaped waits at_ unmasked node free inside clear used hk empty base presence reserved => ?_,
      fun op => ?_⟩
    · have answers : s.answers b (s.bay b).opNumber isSpinUp = true := by simp [State.answers, op, isSpinUp]
      show execSpinUpReady b _ s = _
      rw [execSpinUpReady, onBay_eq hb, if_pos answers]
      rfl
    · have h := lt_of_op op
      have frame : GrantFrame (s.readied b capacity) (finish (s.readied b capacity).oweScan) :=
        GrantChain.frame ((GrantMove.ends (.owe _)).chain.trans (finish_chain _))
      have bay := State.readied_bay h capacity
      refine ⟨_, exec_identifyAnswer hb op range, ?_, ?_⟩ <;> rw [if_neg (by omega), becomeReady_eq h]
      · exact ((frame.bays b).eq (by rw [bay]; rfl)).trans bay
      · exact frame.notices
    · intro limit clamped issue loan
      subst at_
      have number := freeSlotNumber_eq used (by rw [shaped.loans]; exact hk) empty
      have granted := finish_readied_grant (lt_of_op op) waits unmasked free inside clear number (by rw [shaped.loans]; exact hk)
        base presence reserved
      rw [clampRange_inside inside] at granted
      have alone := newLoan_alone (s := { (s.readied e.bay capacity).oweScan with waits := [] }) free rfl e.node e.kind e.cls
        clamped
      refine ⟨_, exec_identifyAnswer hb op range, ?_⟩
      rw [if_neg (by omega), becomeReady_eq (lt_of_op op), granted]
      refine ⟨rfl, rfl, rfl, ?_, ?_⟩
      · simp only [State.grantedAlone, alone, clamped]; rfl
      · simp only [State.grantedAlone, alone, clamped]; rfl
    · refine ⟨_, exec_identifyAnswer hb op (Nat.zero_le _), ?_⟩
      rw [if_pos rfl]
      exact finish_badIdentify (lt_of_op op)
  · have expired : s.expired b isSpinUp = true := by simp [State.expired, op, isSpinUp, late]
    refine ⟨_, ?_, finish_spinFault (lt_of_op op) .noSpin⟩
    show execSpinUpTimeout b s = _
    rw [execSpinUpTimeout, onBay_eq hb, if_pos expired]
  · have expired : s.expired b isIdentify = true := by simp [State.expired, op, isIdentify, late]
    refine ⟨_, ?_, finish_badIdentify (lt_of_op op)⟩
    show execIdentifyTimeout b s = _
    rw [execIdentifyTimeout, onBay_eq hb, if_pos expired]

end Sys2Proof.Machine
end

section
/-! PROOFS. COPY (O43). -/

namespace Sys2Proof.Machine

/-! ### A COPYING record stays (R149) -/

/-- Every COPYING twin record of the state before stands in the state after. -/
def SparesCopies (s t : State) : Prop := ∀ i w, s.twin i = some w → w.state = .copying → t.twin i = some w

theorem SparesCopies.refl (s : State) : SparesCopies s s := fun _ _ h _ => h

theorem SparesCopies.trans {s t u : State} (a : SparesCopies s t) (b : SparesCopies t u) : SparesCopies s u :=
  fun i w h c => b i w (a i w h c) c

theorem SparesCopies.of_twins {s t : State} (e : t.twins = s.twins) : SparesCopies s t := fun i w h _ => by
  rwa [State.twin, e]

/-- After a change of other parts of the state. -/
theorem SparesCopies.after {s u t : State} (h : SparesCopies u t) (e : u.twins = s.twins) : SparesCopies s t :=
  (of_twins e).trans h

/-- Before a change of other parts of the state. -/
theorem SparesCopies.before {s u t : State} (h : SparesCopies s u) (e : t.twins = u.twins) : SparesCopies s t :=
  h.trans (of_twins e)

theorem SparesCopies.ite {c : Prop} [Decidable c] {s t u : State} (ht : SparesCopies s t) (hu : SparesCopies s u) :
    SparesCopies s (if c then t else u) := by
  split
  · exact ht
  · exact hu

theorem foldl_sparesCopies {α : Type} (g : State → α → State) (h : ∀ s a, SparesCopies s (g s a)) (as : List α) (s : State) :
    SparesCopies s (as.foldl g s) := by
  induction as generalizing s with
  | nil => exact .refl s
  | cons a as ih => exact (h s a).trans (ih _)

theorem eachSlot_sparesCopies (g : Nat → State → State) (h : ∀ k s, SparesCopies s (g k s)) (s : State) :
    SparesCopies s (s.eachSlot g) :=
  foldl_sparesCopies _ (fun s k => h k s) _ s

theorem place_sparesCopies (l : Nat) (o : OutRecord) (s : State) : SparesCopies s (place l o s) :=
  .ite (.of_twins rfl) (.refl s)

theorem placeReserved_sparesCopies (l : Nat) (o : OutRecord) (s : State) : SparesCopies s (placeReserved l o s) :=
  .ite (.of_twins rfl) (.refl s)

theorem giveBack_twins (ref : CommandRef) (n : Nat) (s : State) : (giveBack ref n s).twins = s.twins := by
  unfold giveBack
  split <;> rfl

/-- R149: only a record outside COPYING is freed. -/
theorem freeTwinIfUnnamed_sparesCopies (t : Nat) (s : State) : SparesCopies s (freeTwinIfUnnamed t s) := by
  unfold freeTwinIfUnnamed
  split
  · rename_i v hv
    split
    · rename_i gone
      intro i w h copying
      by_cases e : t = i
      · subst e
        cases hv.symm.trans h
        exact absurd copying gone.2.1
      · exact (State.twin_setTwin_ne s t i none e).trans h
    · exact .refl s
  · exact .refl s

theorem freeSlot_sparesCopies (k : Nat) (s : State) : SparesCopies s (freeSlot k s) := by
  unfold freeSlot
  split
  · exact .refl s
  · have emptied : SparesCopies s (s.setSlot k { s.slot k with loan := none }).oweScan := .of_twins rfl
    dsimp only
    split
    · exact emptied.trans (freeTwinIfUnnamed_sparesCopies _ _)
    · exact emptied

theorem offerLoanNotices_sparesCopies (n : Nat) (s : State) : SparesCopies s (offerLoanNotices n s) := by
  refine eachSlot_sparesCopies _ (fun k s => .ite ?_ (.refl s)) s
  unfold placeLoanNotice
  split
  · exact .refl s
  · dsimp only
    split
    · exact (place_sparesCopies _ _ s).trans (freeSlot_sparesCopies _ _)
    · exact (place_sparesCopies _ _ s).before rfl
    · exact .refl s

theorem enterEnded_sparesCopies (k : Nat) (s : State) : SparesCopies s (enterEnded k s) := by
  unfold enterEnded
  split
  · exact .refl s
  · refine .ite (freeSlot_sparesCopies k s) ?_
    dsimp only
    split
    · exact (placeReserved_sparesCopies _ _ s).trans ((freeSlot_sparesCopies k _).after rfl)
    · exact (offerLoanNotices_sparesCopies _ _).after rfl

theorem endIfIdle_sparesCopies (k : Nat) (s : State) : SparesCopies s (endIfIdle k s) := by
  unfold endIfIdle
  split
  · exact .ite (enterEnded_sparesCopies k s) (.refl s)
  · exact .refl s

theorem freeRecord_sparesCopies (ref : CommandRef) (s : State) : SparesCopies s (freeRecord ref s) := by
  unfold freeRecord
  split
  · exact .refl s
  · dsimp only
    split
    · exact .of_twins (giveBack_twins ref _ s)
    · exact (endIfIdle_sparesCopies _ _).after (giveBack_twins ref _ s)

theorem freeIfDone_sparesCopies (ref : CommandRef) (s : State) : SparesCopies s (freeIfDone ref s) := by
  unfold freeIfDone
  split
  · exact .ite (freeRecord_sparesCopies ref s) (.refl s)
  · exact .refl s

theorem finalReply_sparesCopies (ref : CommandRef) (out : Record) (s : State) : SparesCopies s (finalReply ref out s) := by
  unfold finalReply
  split
  · exact .refl s
  · exact (SparesCopies.ite (.refl s) (placeReserved_sparesCopies _ _ s)).before rfl

theorem endDone_sparesCopies (ref : CommandRef) (st : Status) (blocks : Nat) (s : State) :
    SparesCopies s (endDone ref st blocks s) :=
  (finalReply_sparesCopies _ _ s).trans (freeRecord_sparesCopies _ _)

theorem endStream_sparesCopies (ref : CommandRef) (st : Status) (s : State) : SparesCopies s (endStream ref st s) := by
  unfold endStream
  split
  · exact .refl s
  · exact (finalReply_sparesCopies _ _ s).trans ((freeIfDone_sparesCopies _ _).after rfl)

theorem endWork_sparesCopies (bay : Nat) (reason : EndReason) (first : Bool) (ref : CommandRef) (s : State) :
    SparesCopies s (endWork bay reason first ref s) := by
  have dropped : SparesCopies s (ringDrop bay ref s) := .of_twins rfl
  have marked (f : Command → Command) : SparesCopies s (s.modRecord ref f) := .of_twins rfl
  unfold endWork
  split
  · exact .refl s
  · dsimp only
    split
    · exact dropped.trans (endStream_sparesCopies _ _ _)
    · exact dropped.trans (endDone_sparesCopies _ _ _ _)
    · exact endDone_sparesCopies _ _ _ _
    · exact .ite (.ite (freeRecord_sparesCopies _ _) (.refl s)) (.ite (freeRecord_sparesCopies _ _) (marked _))
    · exact .ite (marked _) (.ite (freeRecord_sparesCopies _ _) (.refl s))

theorem decideEnd_sparesCopies (k : Nat) (reason : EndReason) (s : State) : SparesCopies s (decideEnd k reason s) := by
  unfold decideEnd
  split
  · exact .refl s
  · rename_i l _
    have works (bay : Nat) (r : EndReason) (first : Bool) (refs : List CommandRef) (x : Loan) :
        SparesCopies s (refs.foldl (fun s ref => endWork bay r first ref s) (s.setLoan k x).oweScan) :=
      (foldl_sparesCopies _ (fun s ref => endWork_sparesCopies bay r first ref s) _ _).after rfl
    refine .ite ((works _ _ _ _ _).trans (endIfIdle_sparesCopies _ _)) (.ite ?_ (.refl s))
    exact .ite ((works _ _ _ _ _).trans (freeSlot_sparesCopies _ _)) ((works _ _ _ _ _).trans (endIfIdle_sparesCopies _ _))

theorem recomputeAgainst_sparesCopies (e : WaitEntry) (s : State) : SparesCopies s (recomputeAgainst e s) := by
  refine .ite (.refl s) (eachSlot_sparesCopies _ (fun k s => ?_) s)
  split
  · refine .ite ?_ (.refl s)
    unfold recompute
    split
    · exact .refl s
    · exact .ite ((decideEnd_sparesCopies _ _ _).after rfl) (.of_twins rfl)
  · exact .refl s

theorem refuseEntry_sparesCopies (e : WaitEntry) (reason : NodeReason) (s : State) : SparesCopies s (refuseEntry e reason s) :=
  ((placeReserved_sparesCopies _ _ s).trans (recomputeAgainst_sparesCopies e _)).before rfl

theorem removeWaits_sparesCopies (p : WaitEntry → Bool) (reason : NodeReason) (s : State) :
    SparesCopies s (removeWaits p reason s) :=
  .ite (.refl s) ((foldl_sparesCopies _ (fun s e => refuseEntry_sparesCopies e reason s) _ _).after rfl)

/-- R161: only a LIVE record becomes STALE. -/
theorem staleTwins_sparesCopies (b : Nat) (range : Option Range) (s : State) : SparesCopies s (staleTwins b range s) := by
  intro i w h copying
  have stays : Twin.stale b range w = w := if_neg fun c => by simp [copying] at c
  rw [State.twin, staleTwins_twins]
  have at_ : s.twins[i]? = some (some w) := by
    have lt := s.twin_lt_of_some i w h
    rw [State.twin, List.getD_eq_getElem _ _ lt] at h
    rw [List.getElem?_eq_getElem lt, h]
  simp [List.getD_eq_getElem?_getD, at_, stays]

theorem makeLoan_sparesCopies (k n tag bay : Nat) (kind : LoanKind) (cls : Cls) (range : Option Range) (s : State) :
    SparesCopies s (makeLoan k n tag bay kind cls range s) := by
  rw [makeLoan_eq]
  have placed (o : OutRecord) (x : Slot) : SparesCopies s (placeReserved n o (s.setSlot k x)) :=
    (placeReserved_sparesCopies _ _ _).after rfl
  exact .ite ((placed _ _).trans (staleTwins_sparesCopies _ _ _)) (placed _ _)

theorem scanFrom_sparesCopies (todo kept : List WaitEntry) (s : State) : SparesCopies s (scanFrom kept todo s) := by
  induction todo generalizing kept s with
  | nil => exact .refl s
  | cons e rest ih =>
    have less : SparesCopies s { s with waits := kept ++ rest } := .of_twins rfl
    have refuse (reason : NodeReason) :
        SparesCopies s (scanFrom kept rest (refuseEntry e reason { s with waits := kept ++ rest })) :=
      (less.trans (refuseEntry_sparesCopies e reason _)).trans (ih _ _)
    unfold scanFrom
    refine .ite (ih _ s) (.ite (refuse _) (.ite (refuse _) (.ite (refuse _) (.ite ?_ (ih _ s)))))
    split
    · exact .refl s
    · exact ((less.trans (makeLoan_sparesCopies _ _ _ _ _ _ _ _)).trans (recomputeAgainst_sparesCopies e _)).trans (ih _ _)

theorem finish_sparesCopies (s : State) : SparesCopies s (finish s) :=
  .ite ((scanFrom_sparesCopies s.waits [] s).before rfl) (.refl s)

/-! ### The body, and the checks (R152, R153) -/

theorem atLeast_bind {α : Type} (body : List Byte) (n : Nat) (k : Unit → Form α) :
    (atLeast body n >>= k) = if body.length < n then .error (rejectLength body n) else k () := by
  unfold atLeast
  split <;> rfl

theorem demand_bind {α : Type} (off : Nat) (c : Bool) (k : Unit → Form α) :
    (demand off c >>= k) = if ¬ c = true then .error (rejectField off) else k () := by
  cases c <;> rfl

/-- R152: the checks of a COPY's body, in their order. -/
theorem copyForm_eq (body : List Byte) : copyForm body =
    if body.length < 10 then .error (rejectLength body 10)
    else if ¬ field body 0 1 < 24 then .error (rejectField 0)
    else if ¬ (field body 1 1 < 24 ∧ field body 1 1 ≠ field body 0 1) then .error (rejectField 1)
    else if ¬ field body 2 4 ≤ field body 6 4 then .error (rejectField 2)
    else .ok { source := field body 0 1, target := field body 1 1, first := field body 2 4, last := field body 6 4 } := by
  simp only [copyForm, atLeast_bind, demand_bind, Bool.and_eq_true, decide_eq_true_eq, bne_iff_ne]
  rfl

/-- A supervisor's command whose frame can be taken, its tag not 0, runs its act on the state that has taken the frame. -/
theorem State.CanTake.supervised {s : State} {kind : Nat} {f : Frame} (h : s.CanTake 0 kind 1 f) (tag : f.tag ≠ 0)
    (act : Frame → State → State) : Machine.supervised kind act s = .next (finish (act f (s.took 0 1))) := by
  rw [Machine.supervised, State.CanTake.taking (needs := oneEntry) h, if_neg tag]
  rfl

/-- R153: a copy that passes every check is from a bay that is READY. -/
theorem ready_of_copyRefusal {s : State} {source target first last : Nat}
    (h : s.copyRefusal source target first last = none) : (s.bay source).state = .ready := by
  by_contra other
  rw [State.copyRefusal, if_pos (.inl other)] at h
  cases h

theorem freeChannel_eq {s : State} {c : Nat} (busy : ∀ j < c, (s.channel j).busy = true) (h : c < s.channels.length)
    (free : (s.channel c).busy = false) : s.freeChannel = c := by
  have at_ (j : Nat) (hj : j < s.channels.length) : s.channel j = s.channels[j] := List.getD_eq_getElem _ _ hj
  rw [State.freeChannel, List.findIdx_eq h]
  refine ⟨by rw [← at_ c h, free]; rfl, fun j hj => ?_⟩
  rw [← at_ j (hj.trans h), busy j hj]
  rfl

theorem freeTwin_eq {s : State} {t : Nat} (used : ∀ j < t, (s.twin j).isSome = true) (h : t < s.twins.length)
    (free : s.twin t = none) : s.freeTwin = t := by
  have at_ (j : Nat) (hj : j < s.twins.length) : s.twin j = s.twins[j] := List.getD_eq_getElem _ _ hj
  rw [State.freeTwin, List.findIdx_eq h]
  refine ⟨by rw [← at_ t h, free]; rfl, fun j hj => ?_⟩
  rw [← at_ j (hj.trans h)]
  simpa [Option.isSome_iff_ne_none, Option.isNone_iff_eq_none] using used j hj

/-! ### The copy (R149, R151, R154) -/

/-- The member of a service ring that a copy channel is (R116). -/
def channelMember (c : Nat) : Member := { who := .channel c, cls := .bulk, credit := 0, visited := false, queued := [] }

/-- A copy channel whose first chunk, of blocks `first` to `last`, is queued. -/
def Channel.begun (t first last : Nat) : Channel :=
  { busy := true, twin := t, phase := .queued, chunkFirst := first, chunkCount := min 32 (last - first + 1), held := 0
    endStatus := none, filled := [] }

theorem queueChunkRead_eq {s : State} {c : Nat} {w : Twin} (h : s.twin (s.channel c).twin = some w) :
    queueChunkRead c s = ringJoin w.source (channelMember c) (s.modChannel c fun x =>
      { x with phase := .queued, chunkFirst := w.next, chunkCount := min Config.chunk (w.last - w.next + 1) }) := by
  simp only [queueChunkRead, h]
  rfl

theorem GrantChain.sizes {s t : State} (c : GrantChain s t) : t.sizes = s.sizes := c.shelf.keepsBounds.sizes

section
variable {s : State} {c t : Nat} {w : Twin}

/-- R153, R154, R38: a record made in slot `t` with its channel: the entries on its target are refused, and its first chunk is
queued on its source. The record and the channel come through both. -/
theorem copy_begun (hc : c < s.channels.length) (ht : t < s.twins.length) (copying : w.state = .copying)
    (source : w.source < s.bays.length) :
    let made := (s.setTwin t (some w)).setChannel c { Channel.free with busy := true, twin := t }
    let u := finish (queueChunkRead c (removeWaitsOn w.target .twinTarget made).oweScan)
    u.twin t = some w ∧ u.channel c = Channel.begun t w.next w.last ∧ channelMember c ∈ (u.bay w.source).ring ∧
      u.noWaitOn w.target ∧ u.bays.length = s.bays.length ∧ Grows s u := by
  intro made u
  let removed := (removeWaitsOn w.target .twinTarget made).oweScan
  have chain : GrantChain made removed := (removeWaitsOn_chain w.target .twinTarget made).tail (.ends (.owe _))
  have twin : removed.twin t = some w :=
    (removeWaits_sparesCopies _ _ made).before (u := removeWaitsOn w.target .twinTarget made) (t := removed) rfl t w
      (State.twin_setTwin_self s t _ ht) copying
  have channel : removed.channel c = { Channel.free with busy := true, twin := t } :=
    (congrArg (fun cs : List Channel => cs.getD c Channel.free) chain.frame.channels).trans
      (State.channel_setChannel_self s c _ hc)
  have size : removed.bays.length = s.bays.length := (State.bays_length_of_sizes chain.sizes).trans (by simp [made])
  have queued := queueChunkRead_eq (s := removed) (c := c) (by rw [channel]; exact twin)
  have scan := finish_chain (queueChunkRead c removed)
  refine ⟨?_, ?_, ?_, ?_, ?_, ?_⟩
  · refine finish_sparesCopies _ t w ?_ copying
    rw [queued]
    exact twin
  · refine (congrArg (fun cs : List Channel => cs.getD c Channel.free) scan.frame.channels).trans ?_
    rw [queued]
    refine (State.channel_setChannel_self removed c _ ?_).trans ?_
    · rw [chain.frame.channels]
      simpa [made] using hc
    · rw [channel]
      rfl
  · refine (scan.frame.bays w.source).keeps _ ?_ rfl
    rw [queued, ringJoin, State.bay_modBay_self (by rw [State.modChannel]; exact size ▸ source)]
    exact List.mem_append_right _ (List.mem_singleton.mpr rfl)
  · refine State.noWaitOn.of_sublist ?_ scan.frame.waits
    rw [queued]
    exact removeWaitsOn_noWaitOn _ _ _
  · rw [State.bays_length_of_sizes scan.sizes, queued]
    simpa [ringJoin, State.modChannel] using size
  · exact (((Grows.of_links rfl).trans chain.grows).trans (queueChunkRead_grows c removed)).trans scan.grows

end

/-- Settles O43: the checks answer at once; a copy that passes them is answered and begun (`copy_begun`). -/
theorem copyStartsOrRefused : Obligations.CopyStartsOrRefused := by
  intro s f source target first last h tag
  have acts : exec .copy s = .next (finish (formed copyForm copyAct f (s.took 0 1))) := h.supervised tag _
  have rejected (r : Reject) (form : copyForm f.body = .error r) :
      exec .copy s = .next (s.answer 0 f (.reject r.reason r.place r.offset kindCopy)) := by
    rw [acts, formed, form]
    dsimp only
    rw [reject, finish_reply_took h.settled h.presence, h.isKind]
  refine ⟨fun short => ?_, fun long out => ?_, fun long inside out => ?_, fun long inside target differ order => ?_, ?_⟩
  · rw [rejected (rejectLength f.body 10) (by rw [copyForm_eq, if_pos short])]
    simp [rejectLength, short.le]
  · refine rejected (rejectField 0) ?_
    rw [copyForm_eq, if_neg (by omega), if_pos (by omega)]
  · refine rejected (rejectField 1) ?_
    rw [copyForm_eq, if_neg (by omega), if_neg (by omega), if_pos (by omega)]
  · refine rejected (rejectField 2) ?_
    rw [copyForm_eq, if_neg (by omega), if_neg (by omega), if_neg (by omega), if_pos (by omega)]
  · intro long hs ht hf hl source_lt target_lt differ order
    have form : copyForm f.body = .ok { source, target, first, last } := by
      rw [copyForm_eq, if_neg (by omega), if_neg (by omega), if_neg (by omega), if_neg (by omega), hs, ht, hf, hl]
    have decides : exec .copy s = .next (finish (copyAct f { source, target, first, last } (s.took 0 1))) := by
      rw [acts, formed, form]
    refine ⟨fun r refused => ?_, fun c t passed busy hc free used ht empty => ?_⟩
    · have act : copyAct f { source, target, first, last } (s.took 0 1) = reply 0 f (.refusedSup r) (s.took 0 1) := by
        have same : (s.took 0 1).copyRefusal source target first last = some r := refused
        simp only [copyAct, same]
      rw [decides, act, finish_reply_took h.settled h.presence]
    · let w : Twin :=
        { source, target, first, last, state := .copying, channel := some c, next := first, retiring := false }
      let v := s.answer 0 f (.takenCopy t c source target first last)
      have channel := freeChannel_eq busy hc free
      have twin := freeTwin_eq used ht empty
      have act : copyAct f { source, target, first, last } (s.took 0 1) = startCopy source target first last v := by
        have same : (s.took 0 1).copyRefusal source target first last = none := passed
        have replied := reply_taken f (.takenCopy t c source target first last) h.presence
        simp only [copyAct, same]
        rw [show (s.took 0 1).freeTwin = t from twin, show (s.took 0 1).freeChannel = c from channel]
        exact congrArg _ replied
      have starts : startCopy source target first last v = queueChunkRead c (removeWaitsOn target .twinTarget
          ((v.setTwin t (some w)).setChannel c { Channel.free with busy := true, twin := t })).oweScan := by
        unfold startCopy
        rw [show v.freeTwin = t from twin, show v.freeChannel = c from channel]
      obtain ⟨record, chunk, member, clear, size, grows⟩ :=
        copy_begun (s := v) (w := w) hc ht rfl (lt_of_ready (ready_of_copyRefusal passed))
      have refused : s.refusedOn target .twinTarget (finish (startCopy source target first last v)) := by
        have calm : Calm s v := setLink0_calm _ s rfl (List.prefix_append _ _)
        exact refusedOn_grows (refusedOn_calm calm (startCopy_refusedOn source target first last v)) (finish_grows _)
      refine ⟨_, decides.trans (by rw [act]), ?_⟩
      rw [starts] at refused ⊢
      refine ⟨record, chunk, grows.hasPlaced ?_, member, refused, clear, size⟩
      rw [State.HasPlaced, show v.link 0 = _ from State.link_setLink_self s 0 _ h.lt]
      exact List.mem_append_right _ (List.mem_singleton.mpr rfl)

end Sys2Proof.Machine
end

section
/-! PROOFS. A drain whose bay's ring names another loan's command (O39, O40), and a fault under an ACTIVE loan with LOAN ENDED
pending (O36): refutations, each by one state on which the part is run. -/

namespace Sys2Proof.Machine

/-! ### The drain (R137, R164) -/

/-- An ACTIVE VIEW loan of node 1 on bay 0, of blocks 0 to 9. -/
def viewOnBay0 : Loan :=
  { borrower := 1, askedBay := 0, placedBay := 0, viaTwin := none, kind := .view, cls := .normal, range := some ⟨0, 9⟩
    state := .active, endReason := none, holdBase := 500, holdLimit := 500, idle := 0, commands := 0, notice := none
    returnTag := none, move := none }

/-- The READ in service on bay 0, under the loan in slot 1. -/
def readUnderLoan1 : Command := { Command.fresh 1 7 ⟨1, 0⟩ .read 0 1 with state := .inService }

/-- A LIVE record from bay 0 to bay 1. -/
def twinOfBay0 : Twin :=
  { source := 0, target := 1, first := 0, last := 99, state := .live, channel := none, next := 100, retiring := false }

/-- RELEASE BAY of bay 0. -/
def releaseOfBay0 : Frame := { kind := kindReleaseBay, tag := 1, body := [0#8] }

/-- Two loans that the twin covers stand on bay 0. The command in service is the second loan's, but the ring of bay 0 names it as
a queued command of the first. A RELEASE BAY stands at the head of the supervisor's queue. -/
def ringNamesOther : State :=
  { State.reset with
    links := { Link.initial with presence := true, inbound := [releaseOfBay0] } :: List.replicate 16 Link.initial
    loans := [{ issue := 0, loan := some viewOnBay0 }, { issue := 0, loan := some { viewOnBay0 with commands := 1 } }] ++
      List.replicate 94 { issue := 0, loan := none }
    records := [readUnderLoan1]
    bays := [{ Bay.initial with
        presence := true, state := .ready, capacity := some 100, service := some (.command readUnderLoan1.ref)
        ring := [{ who := .loan 0, cls := .normal, credit := 0, visited := false, queued := [readUnderLoan1.ref] }] },
      { Bay.initial with presence := true, state := .ready, capacity := some 100 }] ++ List.replicate 22 Bay.initial
    twins := some twinOfBay0 :: List.replicate 5 none
    notices := { Notices.afterReset with cause := Notices.afterReset.bay } }

theorem ringNamesOther_shaped : ringNamesOther.Shaped := (State.shaped_iff_sizes _).mpr (by decide)

theorem ringNamesOther_canTake : ringNamesOther.CanTake 0 kindReleaseBay 1 releaseOfBay0 :=
  ⟨rfl, rfl, rfl, rfl, rfl, by decide +kernel⟩

/-- Twin slot 0 holds the one record. -/
theorem ringNamesOther_twin {j : Nat} {v : Twin} (h : ringNamesOther.twin j = some v) : j = 0 := by
  have lt := State.twin_lt_of_some _ _ _ h
  have empty : ∀ i < 6, i ≠ 0 → ringNamesOther.twin i = none := by decide
  by_contra ne
  rw [empty j lt ne] at h
  cases h

/-- Whether the loan in slot 1 is on another bay than bay 0 in the next state. -/
def leftBay0 : Result → Bool
  | .next t => (t.loan 1).any fun l => l.placedBay != 0
  | _ => false

/-- R164 has the second loan stay on bay 0 and hold its move, as its READ is in service there. -/
theorem not_drainMoves_of_leftBay0 {t : State} (left : leftBay0 (.next t) = true) : ¬ ringNamesOther.drainMoves 0 t := by
  intro moves
  obtain ⟨-, -, loans⟩ := moves rfl 0 twinOfBay0 rfl rfl (.inl rfl)
    (fun j v other ne => absurd (ringNamesOther_twin other) ne) (by decide)
  obtain ⟨covered, -⟩ := loans 1 { viewOnBay0 with commands := 1 } rfl rfl rfl rfl (by decide)
  obtain ⟨-, stays⟩ := covered ⟨0, 9⟩ rfl rfl rfl rfl rfl rfl (by decide) (by decide)
  obtain ⟨x, loan, -, placed, -⟩ := stays (by decide)
  simp [leftBay0, loan, placed] at left

/-- The move of the first loan takes what the ring names along and marks it QUEUED, so that the second loan, with no command in
service any more, is moved at once. -/
theorem exec_ringNamesOther :
    leftBay0 (exec (.releaseButtonPress 0) ringNamesOther) = true ∧ leftBay0 (exec .releaseBay ringNamesOther) = true := by
  decide +kernel

/-- Refutes O39: the statement does not tie a ring's queued commands to the loan of their member. Where the ring of the draining
bay names another loan's READ, which is in service, that loan leaves the bay instead of holding its move. -/
theorem not_releaseButtonReleases : ¬ Obligations.ReleaseButtonReleases := by
  intro h
  obtain ⟨-, -, -, ready⟩ := h ringNamesOther 0 rfl
  obtain ⟨t, e, -, -, -, moves, -⟩ := ready rfl ringNamesOther_shaped rfl
  exact not_drainMoves_of_leftBay0 (e ▸ exec_ringNamesOther.1) moves

/-- Refutes O40, by the state that refutes O39. -/
theorem not_releaseBayDrains : ¬ Obligations.ReleaseBayDrains := by
  intro h
  obtain ⟨-, -, -, -, -, ready⟩ := h ringNamesOther releaseOfBay0 ringNamesOther_canTake (by decide)
  obtain ⟨t, e, -, -, -, -, moves, -⟩ := ready (by decide) (by decide) ringNamesOther_shaped rfl
  exact not_drainMoves_of_leftBay0 (e ▸ exec_ringNamesOther.2) moves

/-! ### The fault (R132, R95) -/

/-- The stream in service on bay 0, under the loan in slot 1. -/
def streamUnderLoan1 : Command :=
  { Command.fresh 1 7 ⟨1, 0⟩ .stream 0 1 with segSize := 1, total := 1, state := .inService }

/-- An ACTIVE loan with one command whose LOAN ENDED is pending already. -/
def activeEnded : Loan := { viewOnBay0 with commands := 1, notice := some .loanEnded }

/-- Two loans of node 1 stand on bay 0, the second with LOAN ENDED pending and its stream in service; the node's queue has
room. -/
def endedPending : State :=
  { State.reset with
    links := [Link.initial, { Link.initial with presence := true }] ++ List.replicate 15 Link.initial
    loans := [{ issue := 0, loan := some viewOnBay0 }, { issue := 0, loan := some activeEnded }] ++
      List.replicate 94 { issue := 0, loan := none }
    records := [streamUnderLoan1]
    bays := { Bay.initial with
        presence := true, state := .ready, capacity := some 100, service := some (.command streamUnderLoan1.ref) } ::
      List.replicate 23 Bay.initial }

theorem endedPending_shaped : endedPending.Shaped := (State.shaped_iff_sizes _).mpr (by decide)

/-- A bay by its number is one of the table's, or the one that stands for an absent bay. -/
theorem State.bay_mem_or_initial (s : State) (b : Nat) : s.bay b ∈ s.bays ∨ s.bay b = Bay.initial := by
  by_cases h : b < s.bays.length
  · exact .inl (by rw [State.bay, List.getD_eq_getElem _ _ h]; exact List.getElem_mem h)
  · exact .inr (List.getD_eq_default _ _ (Nat.le_of_not_lt h))

theorem endedPending_ring (a : Nat) : (endedPending.bay a).ring = [] := by
  have rings : ∀ x ∈ endedPending.bays, x.ring = [] := by decide
  rcases endedPending.bay_mem_or_initial a with mem | initial
  · exact rings _ mem
  · rw [initial]; rfl

theorem endedPending_twin (j : Nat) : endedPending.twin j = none := by
  by_cases h : j < endedPending.twins.length
  · rw [State.twin, List.getD_eq_getElem _ _ h]
    exact List.eq_of_mem_replicate (List.getElem_mem h)
  · exact List.getD_eq_default _ _ (Nat.le_of_not_lt h)

/-- Whether the stream's record has no closing in the next state. -/
def staysOpen : Result → Bool
  | .next t => (t.record streamUnderLoan1.ref).all fun r => r.closing.isNone
  | _ => false

/-- The end of the first loan offers the node's pending notices, and with the LOAN ENDED of the second frees its slot, before the
fault handling comes to it. -/
theorem exec_endedPending : staysOpen (exec (.bayPresenceFall 0) endedPending) = true := by decide +kernel

/-- Refutes O36: of the loan whose stream is cut by the fault the statement does not ask that no LOAN ENDED is pending. Where one
is, the slot can be freed before the loan's end is decided, and the stream's closing is never set. -/
theorem not_faultLeavesNoLoan : ¬ Obligations.FaultLeavesNoLoan := by
  intro h
  obtain ⟨-, -, either⟩ := h endedPending 0 rfl endedPending_shaped (.inl rfl)
  obtain ⟨-, service⟩ := either _ (.inr ⟨rfl, rfl⟩)
  obtain ⟨-, -, stream⟩ := service streamUnderLoan1.ref streamUnderLoan1 activeEnded rfl rfl (by decide) rfl rfl rfl (by decide)
    rfl (fun a m hm => by rw [endedPending_ring a] at hm; cases hm)
  obtain ⟨-, closes, -⟩ := stream rfl
  obtain ⟨t, e, x, record, closing⟩ := closes rfl rfl fun j v hv => by rw [endedPending_twin j] at hv; cases hv
  have opened := exec_endedPending
  simp [e, staysOpen, record, closing] at opened

end Sys2Proof.Machine
end

section
/-! PROOFS. The hold limit (O8), a tick (O47), and the expiry of the idle clock (O16). -/

namespace Sys2Proof.Machine

/-! ### The hold limit (R52) -/

/-- R52: more pressure never raises the hold limit. -/
theorem holdLimitOf_antitone (h m : Nat) : Antitone (holdLimitOf h m) := fun _ _ le =>
  max_le_max_left _ (Nat.div_le_div_left (Nat.add_le_add_left le 4) (by omega))

theorem holdLimitOf_le (h m p : Nat) : holdLimitOf h m p ≤ h :=
  (holdLimitOf_antitone h m (Nat.zero_le p)).trans (holdLimitOf_zero h m).le

theorem le_holdLimitOf (h m p : Nat) : min m h ≤ holdLimitOf h m p := le_max_left _ _

/-- Settles O8: the limit falls with the pressure (`holdLimitOf_antitone`) from H, and M or H bounds it from below. -/
theorem holdLimitBounds : Obligations.HoldLimitBounds := by
  intro h m p
  have upper := holdLimitOf_le h m p
  have lower := le_holdLimitOf h m p
  exact ⟨rfl, lower, upper, holdLimitOf_zero h m, fun le => by omega, fun q le => holdLimitOf_antitone h m le,
    fun _ _ _ _ => by omega⟩

/-! ### A tick (R45, R69, R126, R141) -/

theorem Loan.tick_eq (l : Loan) : l.tick =
    { l with idle := if l.state = .active ∧ l.commands = 0 then max l.idle (min l.holdLimit (l.idle + 1)) else l.idle } := by
  unfold Loan.tick
  by_cases work : l.state = .active ∧ l.commands = 0
  · by_cases short : l.idle < l.holdLimit
    · rw [if_pos ⟨work.1, work.2, short⟩, if_pos work, Nat.min_eq_right short, Nat.max_eq_right (Nat.le_succ _)]
    · rw [if_neg fun c => short c.2.2, if_pos work, Nat.max_eq_left (by omega)]
  · rw [if_neg fun c => work ⟨c.1, c.2.1⟩, if_neg work]

theorem Command.tick_eq (r : Command) : r.tick =
    { r with gapTimer := if r.state = .gathering then max r.gapTimer (min r.dataGap (r.gapTimer + 1)) else r.gapTimer } := by
  unfold Command.tick
  by_cases gathering : r.state = .gathering
  · by_cases short : r.gapTimer < r.dataGap
    · rw [if_pos ⟨gathering, short⟩, if_pos gathering, Nat.min_eq_right short, Nat.max_eq_right (Nat.le_succ _)]
    · rw [if_neg fun c => short c.2, if_pos gathering, Nat.max_eq_left (by omega)]
  · rw [if_neg fun c => gathering c.1, if_neg gathering]

theorem UpkeepTimer.tick_eq (u : UpkeepTimer) : u.tick =
    if u.period ≤ u.seconds then u
    else if u.ticks < 99 then { u with ticks := u.ticks + 1 }
    else { u with seconds := u.seconds + 1, ticks := 0 } := by
  unfold UpkeepTimer.tick
  by_cases passed : u.period ≤ u.seconds
  · rw [if_neg (Nat.not_lt.mpr passed), if_pos passed]
  · rw [if_pos (Nat.lt_of_not_le passed), if_neg passed]
    exact if_congr Nat.succ_lt_succ_iff rfl rfl

theorem Bay.tick_eq (x : Bay) : x.tick =
    { x with
      opTimer := if x.op = none then x.opTimer else max x.opTimer (min x.opLimit (x.opTimer + 1))
      upkeepTimer := x.upkeepTimer.map UpkeepTimer.tick } := by
  unfold Bay.tick
  cases op : x.op with
  | none => simp
  | some o =>
    by_cases short : x.opTimer < x.opLimit
    · rw [if_pos ⟨rfl, short⟩, if_neg (Option.some_ne_none o), Nat.min_eq_right short, Nat.max_eq_right (Nat.le_succ _)]
    · rw [if_neg fun c => short c.2, if_neg (Option.some_ne_none o), Nat.max_eq_left (by omega)]

/-- A slot after a tick, also one that is not in the table. -/
theorem tickState_slot (s : State) (k : Nat) : (tickState s).slot k = (s.slot k).tick :=
  List.getD_map s.loans { issue := 0, loan := none } Slot.tick

/-- A bay after a tick, also one that is not in the table. -/
theorem tickState_bay (s : State) (b : Nat) : (tickState s).bay b = (s.bay b).tick :=
  List.getD_map s.bays Bay.initial Bay.tick

/-- Settles O47: a tick counts each timer up to its limit (`Loan.tick_eq`, `Command.tick_eq`, `Bay.tick_eq`,
`UpkeepTimer.tick_eq`), and an upkeep timer at its period stops. -/
theorem tickCounts : Obligations.TickCounts := by
  refine ⟨fun s => ⟨tickState s, rfl, rfl, rfl, fun k => ?_, ?_, fun b => ?_⟩, fun s b u hb timer passed => ?_⟩
  · rw [State.loan, tickState_slot]
    exact ⟨rfl, congrArg (Option.map · (s.loan k)) (funext Loan.tick_eq)⟩
  · exact congrArg (List.map · s.records) (funext Command.tick_eq)
  · rw [tickState_bay, Bay.tick_eq, funext UpkeepTimer.tick_eq]
  · have expired : ((s.bay b).upkeepTimer.any UpkeepTimer.expired) = true := by simp [timer, UpkeepTimer.expired, passed]
    show execUpkeepTimerExpiry b s = _
    rw [execUpkeepTimerExpiry, onBay_eq hb, if_pos expired]

/-! ### The end of a loan without work (R14, R15, R18) -/

/-- A loan that has ended with a reason, its LOAN ENDED pending. -/
def Loan.endPending (l : Loan) (reason : EndReason) : Loan :=
  { l with state := .ended, endReason := some reason, idle := 0, move := none, notice := some .loanEnded }

section
variable {s : State} {k : Nat} {l : Loan} {reason : EndReason}

/-- The LOAN ENDED of the loan in slot `k`. -/
def State.endedRecord (s : State) (k : Nat) (reason : EndReason) : OutRecord :=
  { tag := 0, record := .loanEnded { slot := k, issue := (s.slot k).issue } (some reason) }

/-- R14, R18: a loan that was not returned and not lost reaches ENDED, and its LOAN ENDED is offered. -/
theorem enterEnded_offers (h : s.loan k = some l) (he : l.endReason ≠ some .linkLost) (untagged : l.returnTag = none) :
    enterEnded k s =
      offerLoanNotices l.borrower (s.setLoan k { l with state := .ended, notice := some .loanEnded, idle := 0 }) := by
  simp only [enterEnded, h, untagged, if_neg he]

/-- R14, R18: an ACTIVE loan without work ends at once, and its LOAN ENDED is offered. -/
theorem decideEnd_idle (h : s.loan k = some l) (active : l.state = .active) (notLost : reason ≠ .linkLost)
    (notReturned : reason ≠ .returned) (idle : l.commands = 0) (alone : s.recordsOf k = []) (untagged : l.returnTag = none) :
    decideEnd k reason s = offerLoanNotices l.borrower (s.setLoan k (l.endPending reason)).oweScan := by
  have loan : (s.setLoan k (l.ending reason)).oweScan.loan k = some (l.ending reason) :=
    State.loan_setLoan_self (s := s) _ (s.slot_lt_of_loan k l h)
  have twice : (s.setLoan k (l.ending reason)).oweScan.setLoan k
      { l.ending reason with state := .ended, notice := some .loanEnded, idle := 0 } =
      (s.setLoan k (l.endPending reason)).oweScan :=
    congrArg State.oweScan (State.setLoan_setLoan s k (l.ending reason) (l.endPending reason))
  rw [decideEnd_active h active notLost, alone, List.foldl_nil, endIfIdle_goes loan (.inr (if_neg notReturned)) idle,
    enterEnded_offers loan (by simpa [Loan.ending] using notLost) untagged, twice]
  rfl

/-- Without room on the node's queue the LOAN ENDED stays pending. -/
theorem finish_offerEnded_noRoom (hw : s.waits = []) (hs : s.Settled) (room : ¬s.placeable l.borrower) :
    finish (offerLoanNotices l.borrower (s.setLoan k (l.endPending reason)).oweScan) = s.setLoan k (l.endPending reason) := by
  rw [offerLoanNotices_noRoom (s := (s.setLoan k _).oweScan) room]
  exact finish_oweScan hw hs

/-- Where no other notice of the node is pending, none is offered of another slot once slot `k` has changed. -/
theorem State.NoOtherNotice.setSlot (alone : s.NoOtherNotice k l) {t : State} {x : Slot} (ht : t.loans = (s.setSlot k x).loans)
    {j : Nat} (hj : j < Config.slots) (ne : j ≠ k) : t.noticeOf l.borrower j = false := by
  refine noticeOf_none fun y hy => alone j y hj ne ?_
  have same : t.loan j = (s.setSlot k x).loan j := by simp only [State.loan, State.slot, ht]
  rwa [same, State.loan, State.slot_setSlot_ne _ _ _ _ ne.symm] at hy

/-- With room on the node's queue the LOAN ENDED of a loan through no twin is placed, and its slot freed. -/
theorem finish_offerEnded_room (hk : k < Config.slots) (h : s.loan k = some l) (via : l.viaTwin = none) (hw : s.waits = [])
    (hs : s.Settled) (alone : s.NoOtherNotice k l) (room : s.placeable l.borrower) :
    finish (offerLoanNotices l.borrower (s.setLoan k (l.endPending reason)).oweScan) =
      (s.setSlot k { issue := (s.slot k).issue, loan := none }).setLink l.borrower
        ((s.link l.borrower).placing (s.endedRecord k reason)) := by
  let u : State := (s.setLoan k (l.endPending reason)).oweScan
  let t : State := (s.setSlot k { issue := (s.slot k).issue, loan := none }).setLink l.borrower
    ((s.link l.borrower).placing (s.endedRecord k reason))
  have loan : u.loan k = some (l.endPending reason) := State.loan_setLoan_self (s := s) _ (s.slot_lt_of_loan k l h)
  have placed : placeLoanNotice k u = t.oweScan := by
    rw [placeLoanNotice_ended loan rfl via room.1]
    have issue : (u.slot k).issue = (s.slot k).issue := State.issue_setLoan s k k _
    have slot : (s.setLoan k (l.endPending reason)).setSlot k { issue := (s.slot k).issue, loan := none } =
        s.setSlot k { issue := (s.slot k).issue, loan := none } := State.setSlot_setSlot s k _ _
    have freed := congrArg (fun v : State => (v.setLink l.borrower
      ((s.link l.borrower).placing (s.endedRecord k reason))).oweScan) slot
    rw [issue]
    exact freed
  have offered : offerLoanNotices l.borrower u = t.oweScan :=
    offerLoanNotices_one hk room (by simp [State.noticeOf, loan, Loan.noticeDue, Loan.endPending]) placed
      (fun j hj => alone.setSlot (t := u) rfl (hj.trans hk) hj.ne) fun j hj hj' => alone.setSlot (t := t.oweScan) rfl hj' hj.ne'
  rw [offered]
  exact finish_oweScan (s := t) hw hs

end

/-- Settles O16: the loan ends at once (`decideEnd_idle`), and its LOAN ENDED is placed (`finish_offerEnded_room`) or stays
pending (`finish_offerEnded_noRoom`). -/
theorem idleClockExpiryEndsLoan : Obligations.IdleClockExpiryEndsLoan := by
  intro s k l settled hk loan active idle due none via untagged waits alone
  have expired : l.expired = true := by simp [Loan.expired, active, idle, due]
  have ends : exec (.idleClockExpiry k) s =
      .next (finish (offerLoanNotices l.borrower (s.setLoan k (l.endPending .holdExpired)).oweScan)) := by
    rw [← decideEnd_idle loan active (by decide) (by decide) idle none untagged]
    show execIdleClockExpiry k s = _
    simp only [execIdleClockExpiry, loan, expired, if_true]
    exact if_neg (by simpa [isSlot] using hk)
  rw [ends]
  exact ⟨fun room => congrArg _ (finish_offerEnded_room hk loan via waits settled alone room),
    fun room => congrArg _ (finish_offerEnded_noRoom waits settled room)⟩

end Sys2Proof.Machine
end

section
/-! PROOFS. A DROP TWIN whose loans stand on a bay whose ring names another loan's command (O45). -/

namespace Sys2Proof.Machine

/-- DROP TWIN of twin record 0. -/
def dropOfTwin0 : Frame := { kind := kindDropTwin, tag := 1, body := [0#8] }

/-- An ACTIVE VIEW loan of node 1, asked of bay 0 and placed on bay 1 through twin record 0. -/
def viewViaTwin0 : Loan := { viewOnBay0 with placedBay := 1, viaTwin := some 0 }

/-- Two loans stand on bay 1 through twin record 0, whose source, bay 0, is READY. The command in service is the second loan's, but
the ring of bay 1 names it as a queued command of the first. A DROP TWIN stands at the head of the supervisor's queue. -/
def targetRingNamesOther : State :=
  { ringNamesOther with
    links := { Link.initial with presence := true, inbound := [dropOfTwin0] } :: List.replicate 16 Link.initial
    loans := [{ issue := 0, loan := some viewViaTwin0 }, { issue := 0, loan := some { viewViaTwin0 with commands := 1 } }] ++
      List.replicate 94 { issue := 0, loan := none }
    bays := [{ Bay.initial with presence := true, state := .ready, capacity := some 100 },
      { Bay.initial with
        presence := true, state := .ready, capacity := some 100, service := some (.command readUnderLoan1.ref)
        ring := [{ who := .loan 0, cls := .normal, credit := 0, visited := false, queued := [readUnderLoan1.ref] }] }] ++
      List.replicate 22 Bay.initial }

theorem targetRingNamesOther_shaped : targetRingNamesOther.Shaped := (State.shaped_iff_sizes _).mpr (by decide)

theorem targetRingNamesOther_canTake : targetRingNamesOther.CanTake 0 kindDropTwin 1 dropOfTwin0 :=
  ⟨rfl, rfl, rfl, rfl, rfl, by decide +kernel⟩

/-- The bay on which the loan in slot 1 stands in the next state. -/
def bayOfLoan1 : Result → Option Nat
  | .next t => (t.loan 1).map Loan.placedBay
  | _ => none

/-- The move of the first loan takes what the ring names along and marks it QUEUED, so that the second loan, with no command in
service any more, is moved to bay 0 at once. -/
theorem exec_targetRingNamesOther : bayOfLoan1 (exec .dropTwin targetRingNamesOther) = some 0 := by decide +kernel

/-- Refutes O45: the statement does not tie a ring's queued commands to the loan of their member. Where the ring of the dropped
record's target names another loan's READ, which is in service, that loan moves to the source instead of holding its move. -/
theorem not_dropTwinActsByState : ¬ Obligations.DropTwinActsByState := by
  intro h
  obtain ⟨-, -, -, -, -, live⟩ :=
    h targetRingNamesOther dropOfTwin0 twinOfBay0 targetRingNamesOther_canTake (by decide) (by decide)
  obtain ⟨-, -, drops⟩ := live (by decide) rfl rfl (.inl rfl) rfl
  obtain ⟨t, e, -, -, -, loans⟩ := drops targetRingNamesOther_shaped
  obtain ⟨-, stays, -⟩ := loans 1 { viewViaTwin0 with commands := 1 } rfl rfl rfl (by decide)
  obtain ⟨x, loan, -, placed, -⟩ := stays rfl (by decide)
  have moved := exec_targetRingNamesOther
  simp [e, bayOfLoan1, loan, placed, viewViaTwin0] at moved

end Sys2Proof.Machine
end

section
/-! PROOFS. What the answer to a block operation of a command comes to, one equation for each step of its handling. -/

namespace Sys2Proof.Machine

/-! ### Changing parts of the state -/

theorem modifyFirst_congr {α : Type} {p : α → Bool} {f g : α → α} {as : List α} (h : ∀ a, as.find? p = some a → f a = g a) :
    modifyFirst p f as = modifyFirst p g as := by
  induction as with
  | nil => rfl
  | cons a as ih =>
    by_cases hp : p a = true
    · simp [modifyFirst, hp, h a (by simp [hp])]
    · rw [modifyFirst, modifyFirst, if_neg hp, if_neg hp, ih fun b hb => h b (by simp [hp, hb])]

/-- Only what a change of a record makes of the one it finds matters. -/
theorem State.modRecord_congr {s : State} {ref : CommandRef} {r : Command} {f g : Command → Command} (h : s.record ref = some r)
    (e : f r = g r) : s.modRecord ref f = s.modRecord ref g := by
  have same := modifyFirst_congr (p := fun q : Command => q.ref == ref) (f := f) (g := g) (as := s.records) fun a ha => by
    rw [Option.some.inj (ha.symm.trans h), e]
  rw [State.modRecord, same]
  rfl

theorem State.setLink_same (s : State) (n : Nat) : s.setLink n (s.link n) = s := by
  rw [State.setLink, State.link, set_getD_same]

/-- The state after the answer to a block operation of command `ref` on bay `b`: the command's record is changed by `f` and the bay
by `g`, and the link of the command's node is `x`. -/
def State.afterBlock (s : State) (b : Nat) (ref : CommandRef) (f : Command → Command) (g : Bay → Bay) (x : Link) : State :=
  ((s.modRecord ref f).modBay b g).setLink ref.node x

section
variable {s : State} {b : Nat} {ref : CommandRef} {r : Command} {f : Command → Command} {g : Bay → Bay} {x : Link}

/-- A record changed after a bay. -/
theorem afterBlock_start (s : State) (b : Nat) (ref : CommandRef) (f : Command → Command) (g : Bay → Bay) :
    (s.modBay b g).modRecord ref f = s.afterBlock b ref f g (s.link ref.node) :=
  (State.setLink_same ((s.modBay b g).modRecord ref f) ref.node).symm

/-- A bay changed alone. -/
theorem afterBlock_bay (s : State) (b : Nat) (ref : CommandRef) (g : Bay → Bay) :
    s.modBay b g = s.afterBlock b ref id g (s.link ref.node) := by
  rw [← afterBlock_start, State.modRecord_same (f := id) fun _ _ => rfl]

/-- Only what the change of the record makes of the one it finds matters. -/
theorem afterBlock_congr {f' : Command → Command} (h : s.record ref = some r) (e : f r = f' r) :
    s.afterBlock b ref f g x = s.afterBlock b ref f' g x := by
  rw [State.afterBlock, State.modRecord_congr h e]
  rfl

theorem afterBlock_record (h : s.record ref = some r) (hf : ∀ r, (f r).ref = r.ref) :
    (s.afterBlock b ref f g x).record ref = some (f r) := State.record_modRecord_some (s := s) h hf

theorem afterBlock_link (hn : ref.node < s.links.length) : (s.afterBlock b ref f g x).link ref.node = x :=
  State.link_setLink_self _ _ _ hn

theorem afterBlock_modRecord (hf : ∀ r, (f r).ref = r.ref) (f' : Command → Command) :
    (s.afterBlock b ref f g x).modRecord ref f' = s.afterBlock b ref (fun r => f' (f r)) g x :=
  congrArg (fun u : State => (u.modBay b g).setLink ref.node x) (State.modRecord_modRecord s ref hf f')

theorem afterBlock_setLink (y : Link) : (s.afterBlock b ref f g x).setLink ref.node y = s.afterBlock b ref f g y :=
  State.setLink_setLink _ _ _ _

theorem afterBlock_modBay (hb : b < s.bays.length) (g' : Bay → Bay) :
    (s.afterBlock b ref f g x).modBay b g' = s.afterBlock b ref f (fun y => g' (g y)) x :=
  congrArg (State.setLink · ref.node x) (State.modBay_modBay (s := s.modRecord ref f) hb g g')

/-- The record is freed as it would have been, where the change of it leaves its name and loan, and what it has returned of its
buffers is in the pool already. -/
theorem afterBlock_withoutRecord {p : Nat} (hf : ∀ r, (f r).ref = r.ref) (hl : (f r).loan = r.loan)
    (hp : p + (f r).held = s.poolFree + r.held) (l : Loan) :
    (({ s with poolFree := p } : State).afterBlock b r.ref f g x).withoutRecord (f r) l =
      ((s.withoutRecord r l).modBay b g).setLink r.ref.node x := by
  have erased := State.eraseP_modRecord s r.ref hf
  show ({ ((({ s with poolFree := p } : State).afterBlock b r.ref f g x).setLoan (f r).loan.slot
      { l with commands := l.commands - 1, idle := 0 }) with
    records := (s.modRecord r.ref f).records.eraseP (fun q => q.ref == (f r).ref), poolFree := p + (f r).held } : State) = _
  rw [hf, hl, hp, erased]
  rfl

/-! ### The bay (R115, R125, R126, R144) -/

/-- A bay whose block operation on block `n` has been answered. -/
def Bay.blockDone (n : Nat) (x : Bay) : Bay := { x.opOver with head := n + 1 }

/-- A bay whose block operation on block `n` has answered MEDIA ERROR. -/
def Bay.blockBad (n : Nat) (x : Bay) : Bay := { x.blockDone n with weak := joinedWeak x.weak n }

/-- A bay on which an operation has been issued under profile `p`. -/
def Bay.issued (p : Profile) (op : DiskOp) (x : Bay) : Bay :=
  { x with op := some op, opNumber := x.opNumber + 1, opTimer := 0, opLimit := opLimitOf p x.powerOnSpin op }

theorem afterBlock_issueOp (hb : b < s.bays.length) (op : DiskOp) :
    issueOp b op (s.afterBlock b ref f g x) = s.afterBlock b ref f (fun y => (g y).issued (s.profile b) op) x :=
  afterBlock_modBay hb _

theorem afterBlock_endService (hb : b < s.bays.length) :
    endService b (s.afterBlock b ref f g x) = s.afterBlock b ref f (fun y => { g y with service := none }) x :=
  afterBlock_modBay hb _

/-- R144, R184: a block joins the weak list, with the notices that this raises. -/
theorem weakJoin_eq (n : Nat) (s : State) : weakJoin b n s =
    { s.modBay b (fun y => { y with weak := joinedWeak y.weak n }) with notices := s.weakNotices b (s.bay b).weak n } := by
  by_cases known : n ∈ (s.bay b).weak
  · have stays := State.modBay_same s b (f := fun y => { y with weak := joinedWeak y.weak n }) (by simp [joinedWeak, known])
    rw [stays]
    simp [weakJoin, State.weakNotices, known]
  · have joins : (if (s.bay b).weak.length < Config.weak then (s.bay b).weak else (s.bay b).weak.drop 1) ++ [n] =
        joinedWeak (s.bay b).weak n := by simp [joinedWeak, known, Config.weak]
    simp only [weakJoin, List.contains_eq_mem, known, decide_false, Bool.false_eq_true, if_false, joins, State.weakNotices]
    by_cases full : (joinedWeak (s.bay b).weak n).length = 16
    · rw [if_pos (show _ = Config.weak from full), if_pos full]
      rfl
    · rw [if_neg (show ¬_ = Config.weak from full), if_neg full]
      rfl

/-- The state after block `n` of bay `b` has answered MEDIA ERROR, and the bay's operation in service is over. -/
def State.badBlock (s : State) (b n : Nat) : State :=
  { s.modBay b (Bay.mediaError n) with notices := s.weakNotices b (s.bay b).weak n }

theorem weakJoin_blockDone (hb : b < s.bays.length) (n : Nat) : weakJoin b n (s.modBay b (Bay.blockDone n)) =
    { s.modBay b (Bay.blockBad n) with notices := s.weakNotices b (s.bay b).weak n } := by
  rw [weakJoin_eq, State.modBay_modBay hb, State.bay_modBay_self hb]
  rfl

theorem service_weakJoin (hb : b < s.bays.length) (n : Nat) :
    ((weakJoin b n (s.modBay b (Bay.blockDone n))).bay b).service = (s.bay b).service := by
  have service := congrArg Bay.service (State.bay_modBay_self (s := s) hb (Bay.blockBad n))
  rw [weakJoin_blockDone hb]
  exact service

theorem endService_weakJoin (hb : b < s.bays.length) (n : Nat) :
    endService b (weakJoin b n (s.modBay b (Bay.blockDone n))) = s.badBlock b n := by
  have ended := congrArg (fun u : State => { u with notices := s.weakNotices b (s.bay b).weak n })
    (State.modBay_modBay hb (Bay.blockBad n) fun y => { y with service := none })
  rw [weakJoin_blockDone hb]
  exact ended

end

end Sys2Proof.Machine
end

section
/-! PROOFS. The answer to a WRITE BLOCK of a WRITE (O31). -/

namespace Sys2Proof.Machine

/-- A command one more block of which is done. -/
def Command.advanced (r : Command) : Command := { r with done := r.done + 1 }

/-- A bay whose WRITE BLOCK of block `n` has answered OK (R115, R145). -/
def Bay.written (n : Nat) (x : Bay) : Bay := { x.blockDone n with weak := x.weak.filter fun m => m != n }

section
variable {s : State} {b n : Nat} {bytes : Block} {ref : CommandRef} {r : Command} {l : Loan} {st : Status}

theorem exec_writeBlockAnswer (hb : isBay b = true) (op : (s.bay b).op = some (.writeBlock n bytes)) (o : WriteOutcome) :
    exec (.writeBlockAnswer b (s.bay b).opNumber o) s = .next (finish (writeAnswered b n o s)) := by
  show execWriteBlockAnswer b _ o s = _
  rw [execWriteBlockAnswer, onBay_eq hb, op]
  exact if_pos rfl

theorem writeAnswered_ok (hb : b < s.bays.length) (service : (s.bay b).service = some (.command ref)) :
    writeAnswered b n .ok s = writeBlockOk b ref (s.modBay b (Bay.written n)) := by
  have removed : weakRemove b (fun m => m == n) (s.modBay b fun x => { x.opOver with head := n + 1 }) =
      s.modBay b (Bay.written n) := State.modBay_modBay hb _ _
  have left : ((s.modBay b (Bay.written n)).bay b).service = some (.command ref) := by
    rw [State.bay_modBay_self hb]; exact service
  simp only [writeAnswered, removed, left]

theorem writeAnswered_mediaError (hb : b < s.bays.length) (service : (s.bay b).service = some (.command ref)) :
    writeAnswered b n .mediaError s = endWriting ref .mediaError (s.badBlock b n) := by
  have left : ((weakJoin b n (s.modBay b fun x => { x.opOver with head := n + 1 })).bay b).service = some (.command ref) :=
    (service_weakJoin hb n).trans service
  have bad : endService b (weakJoin b n (s.modBay b fun x => { x.opOver with head := n + 1 })) = s.badBlock b n :=
    endService_weakJoin hb n
  simp only [writeAnswered, left, bad]

/-! ### The blocks of the WRITE, and its end (R58, R75, R76) -/

theorem writeBlockOk_eq (h : s.record ref = some r) : writeBlockOk b ref s =
    if r.done + 1 = r.count then endWriting ref .ok (endService b (s.modRecord ref Command.advanced))
    else if r.stop then endWriting ref .reclaimed (endService b (s.modRecord ref Command.advanced))
    else issueOp b r.advanced.nextOp (s.modRecord ref Command.advanced) := by
  have same : (s.modRecord ref fun _ => r.advanced) = s.modRecord ref Command.advanced := State.modRecord_congr h rfl
  rw [← same]
  simp only [writeBlockOk, h]
  rfl

/-- A WRITE that ends is answered with its blocks done, and freed; its loan, ACTIVE or with another command, stays. -/
theorem State.CanReply.finish_endWriting (h : s.CanReply r l) (settled : s.Settled) (stays : l.state = .active ∨ 1 < l.commands) :
    finish (endWriting r.ref st s) = (s.replied r (.done st r.done)).withoutRecord r l := by
  have loan := State.loan_withoutRecord (s := s.replied r (.done st r.done)) (r := r) h.loan
  simp only [endWriting, h.record]
  rw [h.endDone, endIfIdle_stays loan (stays.imp id fun busy => .inr (Nat.sub_ne_zero_of_lt busy))]
  exact finish_of_settled settled

end

/-- The one command whose WRITE BLOCK has been answered is over: it is answered with its blocks done, and freed. -/
theorem finish_endWriting_afterBlock {s : State} {b : Nat} {r : Command} {l : Loan} {f : Command → Command} {g : Bay → Bay}
    {st : Status} (h : s.CanReply r l) (settled : s.Settled) (stays : l.state = .active ∨ 1 < l.commands)
    (hf : ∀ q, (f q).ref = q.ref) (hl : (f r).loan = r.loan) (hh : (f r).held = r.held) :
    finish (endWriting r.ref st (s.afterBlock b r.ref f g (s.link r.ref.node))) =
      ((s.withoutRecord r l).modBay b g).setLink r.ref.node
        ((s.link r.ref.node).replying { tag := r.ref.tag, record := .done st (f r).done }) := by
  have name : (f r).ref = r.ref := hf r
  have node : (f r).node = r.node := congrArg CommandRef.node name
  have tag : (f r).tag = r.tag := congrArg CommandRef.tag name
  have link : (s.afterBlock b r.ref f g (s.link r.ref.node)).link r.node = s.link r.node :=
    afterBlock_link (ref := r.ref) (link_lt_of_presence h.presence)
  have can : (s.afterBlock b r.ref f g (s.link r.ref.node)).CanReply (f r) l :=
    ⟨by rw [name]; exact afterBlock_record h.record hf, by rw [hl]; exact h.loan, h.notLost,
      by rw [node, link]; exact h.presence, by rw [node, link]; exact h.reserved⟩
  have replied : (s.afterBlock b r.ref f g (s.link r.ref.node)).replied (f r) (.done st (f r).done) =
      s.afterBlock b r.ref f g ((s.link r.ref.node).replying { tag := r.ref.tag, record := .done st (f r).done }) := by
    rw [State.replied, node, tag, link]
    exact afterBlock_setLink (ref := r.ref) _
  have ends := can.finish_endWriting (st := st) settled stays
  rw [name, replied] at ends
  exact ends.trans (afterBlock_withoutRecord (p := s.poolFree) hf hl (by rw [hh]) l)

/-- Settles O31: the answered block is the WRITE's last, or the WRITE is stopped, or it goes on (`writeBlockOk_eq`); where it ends,
it is answered and freed (`finish_endWriting_afterBlock`). -/
theorem writeBlockOk_holds : Obligations.WriteBlockOk := by
  intro s b number block bytes ref r l hb settled op numbered service record write loan stays notLost presence reserved ended
    written
  subst numbered
  obtain rfl := State.ref_of_record record
  have hs := lt_of_op op
  have can : s.CanReply r l := ⟨record, loan, notLost, presence, reserved⟩
  have began : (s.modBay b (Bay.written block)).modRecord r.ref Command.advanced =
    s.afterBlock b r.ref Command.advanced (Bay.written block) (s.link r.ref.node) := afterBlock_start s b r.ref _ _
  have ok := exec_writeBlockAnswer hb op .ok
  rw [writeAnswered_ok hs service, writeBlockOk_eq (s := s.modBay b (Bay.written block)) record, began,
    afterBlock_endService hs, afterBlock_issueOp hs] at ok
  have ends (st : Status) : finish (endWriting r.ref st (s.afterBlock b r.ref Command.advanced written (s.link r.ref.node))) =
      ended (.done st (r.done + 1)) written :=
    finish_endWriting_afterBlock can settled stays (f := Command.advanced) (fun _ => rfl) rfl rfl
  refine ⟨fun more runs => ?_, fun last => ?_, fun more stopped => ?_, ?_⟩
  · have next : r.advanced.nextOp = .writeBlock (r.first + r.done + 1) (r.gathered.getD (r.done + 1) []) := by
      simp [Command.nextOp, Command.advanced, write, Nat.add_assoc]
    rw [ok, if_neg more.ne, if_neg (by simp [runs]), next]
    refine congrArg _ (Eq.trans (finish_of_settled settled) ?_)
    exact State.setLink_same ((s.modRecord r.ref Command.advanced).modBay b _) r.ref.node
  · rw [ok, if_pos last, ← last]
    exact congrArg _ (ends .ok)
  · rw [ok, if_neg more.ne, if_pos stopped]
    exact congrArg _ (ends .reclaimed)
  · rw [exec_writeBlockAnswer hb op, writeAnswered_mediaError hs service, State.badBlock, afterBlock_bay s b r.ref]
    exact congrArg _ (finish_endWriting_afterBlock (s := { s with notices := s.weakNotices b (s.bay b).weak block }) (f := id)
      ⟨record, loan, notLost, presence, reserved⟩ settled stays (fun _ => rfl) rfl rfl)

end Sys2Proof.Machine
end

section
/-! PROOFS. The answer to a READ BLOCK of a READ or of a stream's segment (O30). -/

namespace Sys2Proof.Machine

section
variable {s : State} {b n : Nat} {ref : CommandRef} {r : Command} {l : Loan} {data : Block} {st : Status}

theorem exec_readBlockAnswer (hb : isBay b = true) (op : (s.bay b).op = some (.readBlock n)) {o : ReadOutcome}
    (formed : o.wellFormed = true) :
    exec (.readBlockAnswer b (s.bay b).opNumber o) s = .next (finish (readAnswered b n o s)) := by
  show execReadBlockAnswer b _ o s = _
  rw [execReadBlockAnswer, onBay_eq hb, op, if_neg (by simp [formed])]
  exact if_pos rfl

/-- R125: an answer to another operation is discarded. -/
theorem exec_readBlockAnswer_other {number : Nat} (hb : isBay b = true) {o : ReadOutcome} (formed : o.wellFormed = true)
    (other : (s.bay b).opNumber ≠ number) : exec (.readBlockAnswer b number o) s = .next s := by
  show execReadBlockAnswer b number o s = _
  rw [execReadBlockAnswer, onBay_eq hb, if_neg (by simp [formed])]
  split
  · exact if_neg other
  · rfl

theorem readAnswered_ok (hb : b < s.bays.length) (service : (s.bay b).service = some (.command ref)) :
    readAnswered b n (.ok data) s = readBlockOk b ref data (s.modBay b (Bay.blockDone n)) := by
  have left : ((s.modBay b fun x => { x.opOver with head := n + 1 }).bay b).service = some (.command ref) :=
    (congrArg Bay.service (State.bay_modBay_self hb (Bay.blockDone n))).trans service
  simp only [readAnswered, left]
  rfl

theorem readAnswered_mediaError (hb : b < s.bays.length) (service : (s.bay b).service = some (.command ref)) :
    readAnswered b n .mediaError s = endReading ref (some .mediaError) (s.badBlock b n) := by
  have left : ((weakJoin b n (s.modBay b fun x => { x.opOver with head := n + 1 })).bay b).service = some (.command ref) :=
    (service_weakJoin hb n).trans service
  have bad : endService b (weakJoin b n (s.modBay b fun x => { x.opOver with head := n + 1 })) = s.badBlock b n :=
    endService_weakJoin hb n
  simp only [readAnswered, left, bad]

/-! ### The block that has been read (R71, R72, R89) -/

/-- The DATA of the block that a command's answered READ BLOCK has read. -/
def Command.blockRead (r : Command) (data : Block) : WaitingData :=
  { tag := r.tag, block := r.segFirst + r.done, index := r.segFirst + r.done - r.first, bytes := data }

/-- A command one more DATA of which has been placed (R89). -/
def Command.counted (r : Command) : Command := if r.kind = .stream then { r with delivered := r.delivered + 1 } else r

/-- A DATA that has waited becomes a record. -/
def WaitingData.out (w : WaitingData) : OutRecord := { tag := w.tag, record := .data w.block w.index w.bytes }

/-- The link once a DATA waits for an entry, behind those that wait already. -/
def Link.waiting (x : Link) (w : WaitingData) : Link := { x with waitingData := x.waitingData ++ [w] }

theorem deliver_placed (h : s.record ref = some r) (kept : s.lost r = false) (room : s.placeable ref.node) (w : WaitingData) :
    deliver ref w s = (s.setLink ref.node ((s.link ref.node).placing w.out)).modRecord ref Command.counted := by
  have there : (s.lost r || !(s.link ref.node).presence) = false := by simp [kept, room.presence]
  simp only [deliver, h, there, placeable_iff.mpr room, place_eq room.1, if_true]
  rfl

theorem deliver_waits (h : s.record ref = some r) (kept : s.lost r = false) (presence : (s.link ref.node).presence = true)
    (room : ¬s.placeable ref.node) (w : WaitingData) :
    deliver ref w s = s.setLink ref.node ((s.link ref.node).waiting w) := by
  have there : (s.lost r || !(s.link ref.node).presence) = false := by simp [kept, presence]
  have noRoom : s.roomForNotice ref.node = false := by simpa using mt placeable_iff.mp room
  simp only [deliver, h, there, noRoom]
  rfl

theorem readBlockOk_eq (h : s.record ref = some r) : readBlockOk b ref data s =
    if r.done + 1 = r.count then
      endReading ref (if r.kind = .read then some .ok else none)
        (endService b (deliver ref (r.blockRead data) (s.modRecord ref Command.advanced)))
    else if r.stop then
      endReading ref (if r.kind = .read then some .reclaimed else none)
        (endService b (deliver ref (r.blockRead data) (s.modRecord ref Command.advanced)))
    else issueOp b (.readBlock (r.segFirst + r.done + 1))
      (deliver ref (r.blockRead data) (s.modRecord ref Command.advanced)) := by
  simp only [readBlockOk, h]
  rfl

/-! ### The end of the disk work (R58, R61, R71, R74) -/

/-- A READ or a stream's segment whose disk work is over, `back` of its buffers returned. -/
def Command.readOver (back : Nat) (outcome : Option Status) (r : Command) : Command :=
  { r with held := r.held - back, state := .delivering, outcome := outcome }

theorem endReading_eq {outcome : Option Status} (h : s.record ref = some r) (kept : s.lost r = false)
    (unread : r.count - r.done ≤ r.held) : endReading ref outcome s = settleRead ref
      { s.modRecord ref (Command.readOver (r.count - r.done) outcome) with poolFree := s.poolFree + (r.count - r.done) } := by
  have twice := congrArg (fun u : State => { u with poolFree := s.poolFree + (r.count - r.done) })
    (State.modRecord_modRecord s ref (f := Command.returned (r.count - r.done)) (fun _ => rfl)
      fun r => { r with state := .delivering, outcome := outcome })
  simp only [endReading, h, kept, giveBack_eq h _ unread]
  exact congrArg (settleRead ref) twice

/-- R72, R74: while DATA of a READ waits, its DONE does; a stream has none here. -/
theorem settleRead_waits (h : s.record ref = some r) (waits : r.kind = .stream ∨ s.dataWaits ref = true) :
    settleRead ref s = s := by
  simp only [settleRead, h]
  split
  · rename_i read _
    refine if_pos ?_
    rcases waits with stream | waits
    · rw [read] at stream; cases stream
    · simp [waits]
  · rfl

/-- R72, R74: with no DATA of a READ waiting, its DONE is placed. -/
theorem settleRead_done (h : s.record ref = some r) (read : r.kind = .read) (outcome : r.outcome = some st)
    (unreplied : r.replied = false) (sent : s.dataWaits ref = false) :
    settleRead ref s = freeIfDone ref (finalReply ref (.done st r.done) s) := by
  simp only [settleRead, h, read, outcome, unreplied, sent]
  rfl

theorem finalReply_eq (h : s.record ref = some r) (kept : s.lost r = false) (presence : (s.link ref.node).presence = true)
    (reserved : 0 < (s.link ref.node).reserved) (out : Record) : finalReply ref out s =
      (s.setLink ref.node ((s.link ref.node).replying { tag := ref.tag, record := out })).modRecord ref Command.answered := by
  simp only [finalReply, h, kept, placeReserved_eq presence reserved]
  rfl

end

/-! ### The record once its disk work is over -/

/-- Command `r`, whose loan is not lost, ends its disk work after change `f`, with `back` of its buffers for blocks not read. -/
structure State.EndsReading (s : State) (ref : CommandRef) (r : Command) (f : Command → Command) (back : Nat) : Prop where
  settled : s.Settled
  record  : s.record ref = some r
  kept    : s.lost r = false
  node    : ref.node < s.links.length
  name    : ∀ q, (f q).ref = q.ref
  loan    : (f r).loan = r.loan
  unread  : (f r).count - (f r).done = back
  holds   : back ≤ (f r).held

/-- The state after the answered READ BLOCK has ended the disk work with an outcome, `back` buffers returned. -/
def State.afterReading (s : State) (b : Nat) (ref : CommandRef) (f : Command → Command) (g : Bay → Bay) (x : Link)
    (back : Nat) : State := ({ s with poolFree := s.poolFree + back } : State).afterBlock b ref f g x

section
variable {s : State} {b back : Nat} {ref : CommandRef} {r : Command} {l : Loan} {f f' : Command → Command} {g : Bay → Bay}
  {x : Link} {st : Status} {outcome : Option Status}

theorem State.EndsReading.afterReading_record (h : s.EndsReading ref r f back) (hf : ∀ q, (f' q).ref = q.ref) :
    (s.afterReading b ref f' g x back).record ref = some (f' r) :=
  afterBlock_record (s := { s with poolFree := s.poolFree + back }) h.record hf

theorem State.EndsReading.afterReading_link (h : s.EndsReading ref r f back) :
    (s.afterReading b ref f' g x back).link ref.node = x :=
  afterBlock_link (s := { s with poolFree := s.poolFree + back }) h.node

theorem State.EndsReading.lost (h : s.EndsReading ref r f back) : s.lost (f r) = false := by
  rw [State.lost, h.loan]
  exact h.kept

theorem State.EndsReading.endReading (h : s.EndsReading ref r f back) : endReading ref outcome (s.afterBlock b ref f g x) =
    settleRead ref (s.afterReading b ref (fun q => (f q).readOver back outcome) g x back) := by
  obtain rfl := h.unread
  rw [endReading_eq (afterBlock_record h.record h.name) h.lost h.holds, afterBlock_modRecord h.name]
  rfl

/-- R58, R91: the DONE of a READ waits behind DATA that waits, and a stream's segment goes on to its boundary. -/
theorem State.EndsReading.finish_waits (h : s.EndsReading ref r f back)
    (waits : (f r).kind = .stream ∨ ∃ w ∈ x.waitingData, w.tag = ref.tag) :
    finish (Machine.endReading ref outcome (s.afterBlock b ref f g x)) =
      s.afterReading b ref (fun q => (f q).readOver back outcome) g x back := by
  have record := h.afterReading_record (f' := fun q => (f q).readOver back outcome) (b := b) (g := g) (x := x) h.name
  have data : (∃ w ∈ x.waitingData, w.tag = ref.tag) →
      (s.afterReading b ref (fun q => (f q).readOver back outcome) g x back).dataWaits ref = true := fun ⟨w, mem, tag⟩ => by
    rw [State.dataWaits, h.afterReading_link]
    exact List.any_eq_true.mpr ⟨w, mem, by simp [tag]⟩
  rw [h.endReading, settleRead_waits record (waits.imp id data)]
  exact finish_of_settled h.settled

/-- R58, R74: with no DATA of a READ waiting its DONE is placed, after which the record may be freed. -/
theorem State.EndsReading.done (h : s.EndsReading ref r f back) (read : (f r).kind = .read) (unreplied : (f r).replied = false)
    (sent : ∀ w ∈ x.waitingData, w.tag ≠ ref.tag) (presence : x.presence = true) (reserved : 0 < x.reserved) :
    Machine.endReading ref (some st) (s.afterBlock b ref f g x) = freeIfDone ref
      (s.afterReading b ref (fun q => ((f q).readOver back (some st)).answered) g
        (x.replying { tag := ref.tag, record := .done st (f r).done }) back) := by
  let v : State := s.afterReading b ref (fun q => (f q).readOver back (some st)) g x back
  have record : v.record ref = some ((f r).readOver back (some st)) := h.afterReading_record h.name
  have link : v.link ref.node = x := h.afterReading_link
  have data : v.dataWaits ref = false := by
    rw [State.dataWaits, link]
    simpa using sent
  have replied := finalReply_eq record h.lost (by rw [link]; exact presence) (by rw [link]; exact reserved)
    (.done st (f r).done)
  rw [h.endReading, settleRead_done record read rfl unreplied data]
  refine congrArg (freeIfDone ref) (replied.trans ?_)
  rw [link]
  exact (congrArg (State.modRecord · ref Command.answered) (afterBlock_setLink _)).trans
    (afterBlock_modRecord (f := fun q => (f q).readOver back (some st)) h.name Command.answered)

/-- A READ that is answered and still holds buffers keeps its record. -/
theorem State.EndsReading.finish_keeps (h : s.EndsReading ref r f back) (hf : ∀ q, (f' q).ref = q.ref)
    (holds : (f' r).held ≠ 0) :
    finish (freeIfDone ref (s.afterReading b ref f' g x back)) = s.afterReading b ref f' g x back := by
  rw [freeIfDone_stays (h.afterReading_record hf) (.inr holds)]
  exact finish_of_settled h.settled

/-- A READ that is answered and holds no buffer is freed; its loan, ACTIVE or with another command, stays. -/
theorem State.EndsReading.finish_frees (h : s.EndsReading r.ref r f back) (held : s.loan r.loan.slot = some l)
    (stays : l.state = .active ∨ 1 < l.commands) (hf : ∀ q, (f' q).ref = q.ref) (hl : (f' r).loan = r.loan)
    (replied : (f' r).replied = true) (empty : (f' r).held = 0) (all : back = r.held) :
    finish (freeIfDone r.ref (s.afterReading b r.ref f' g x back)) =
      ((s.withoutRecord r l).modBay b g).setLink r.ref.node x := by
  have loan : (s.afterReading b r.ref f' g x back).loan (f' r).loan.slot = some l := by rw [hl]; exact held
  rw [freeIfDone_goes (h.afterReading_record hf) replied empty, freeRecord_eq (h.afterReading_record hf) loan,
    endIfIdle_stays (State.loan_withoutRecord loan) (stays.imp id fun busy => .inr (Nat.sub_ne_zero_of_lt busy)),
    State.afterReading, afterBlock_withoutRecord hf hl (by rw [empty, all]; rfl)]
  exact finish_of_settled h.settled

end

end Sys2Proof.Machine
end

section
/-! PROOFS. The answer to a READ BLOCK, by what it finds: the next block, the last, a stop, a bad block (O30). -/

namespace Sys2Proof.Machine

/-- Bay `b` serves command `r`, whose loan is not lost and whose node is present, with the READ BLOCK of block `n` in progress. -/
structure State.Reads (s : State) (b n : Nat) (ref : CommandRef) (r : Command) : Prop where
  isBay    : isBay b = true
  settled  : s.Settled
  op       : (s.bay b).op = some (.readBlock n)
  service  : (s.bay b).service = some (.command ref)
  record   : s.record ref = some r
  block    : r.segFirst + r.done = n
  kept     : s.lost r = false
  presence : (s.link ref.node).presence = true

/-- A bay whose READ BLOCK of block `n` has answered OK, and was the last of its operation in service. -/
def Bay.lastRead (n : Nat) (x : Bay) : Bay := { x.over with head := n + 1 }

/-- How the disk work of a command ends at a block that answers OK: with the last block, or before it at a stop (R58). -/
def Command.endsRead (r : Command) : Prop := r.done + 1 = r.count ∨ (r.done + 1 < r.count ∧ r.stop = true)

/-- The outcome of a READ that ends so. -/
def Command.readOutcome (r : Command) : Status := if r.done + 1 = r.count then .ok else .reclaimed

section
variable {s : State} {b n : Nat} {ref : CommandRef} {r : Command} {data : Block} {f : Command → Command} {g : Bay → Bay}
  {x : Link}

theorem State.Reads.lt (h : s.Reads b n ref r) : b < s.bays.length := lt_of_op h.op

theorem State.Reads.blockRead (h : s.Reads b n ref r) (data : Block) :
    r.blockRead data = { tag := ref.tag, block := n, index := n - r.first, bytes := data } := by
  rw [← State.ref_of_record h.record, ← h.block]
  rfl

/-- The block's DATA is placed, and a stream's counted (R89). -/
theorem State.Reads.deliver_placed (h : s.Reads b n ref r) (room : s.placeable ref.node) (counted : r.advanced.counted = f r) :
    deliver ref (r.blockRead data) ((s.modBay b g).modRecord ref Command.advanced) = s.afterBlock b ref f g
      ((s.link ref.node).placing { tag := ref.tag, record := .data n (n - r.first) data }) := by
  have record : ((s.modBay b g).modRecord ref Command.advanced).record ref = some r.advanced :=
    State.record_modRecord_some (s := s) h.record fun _ => rfl
  have counts := State.modRecord_modRecord ((s.modBay b g).setLink ref.node ((s.link ref.node).placing
    { tag := ref.tag, record := .data n (n - r.first) data })) ref (f := Command.advanced) (fun _ => rfl) Command.counted
  rw [h.blockRead, Machine.deliver_placed record h.kept room]
  exact counts.trans (afterBlock_congr (f := fun q => q.advanced.counted) h.record counted)

/-- The block's DATA waits for an entry. -/
theorem State.Reads.deliver_waits (h : s.Reads b n ref r) (room : ¬s.placeable ref.node) :
    deliver ref (r.blockRead data) ((s.modBay b g).modRecord ref Command.advanced) = s.afterBlock b ref Command.advanced g
      ((s.link ref.node).waiting { tag := ref.tag, block := n, index := n - r.first, bytes := data }) := by
  have record : ((s.modBay b g).modRecord ref Command.advanced).record ref = some r.advanced :=
    State.record_modRecord_some (s := s) h.record fun _ => rfl
  rw [h.blockRead, Machine.deliver_waits record h.kept h.presence room]
  rfl

theorem State.Reads.exec_ok (h : s.Reads b n ref r) (size : data.length = Config.blockBytes) :
    exec (.readBlockAnswer b (s.bay b).opNumber (.ok data)) s =
      .next (finish (readBlockOk b ref data (s.modBay b (Bay.blockDone n)))) := by
  rw [exec_readBlockAnswer h.isBay h.op (by simpa [ReadOutcome.wellFormed] using size), readAnswered_ok h.lt h.service]

/-- R71: the next READ BLOCK is issued. -/
theorem State.Reads.exec_next (h : s.Reads b n ref r) (size : data.length = Config.blockBytes) (more : r.done + 1 < r.count)
    (runs : r.stop = false)
    (delivered : deliver ref (r.blockRead data) ((s.modBay b (Bay.blockDone n)).modRecord ref Command.advanced) =
      s.afterBlock b ref f (Bay.blockDone n) x) :
    exec (.readBlockAnswer b (s.bay b).opNumber (.ok data)) s = .next
      (s.afterBlock b ref f (fun y => (y.blockDone n).issued (s.profile b) (.readBlock (n + 1))) x) := by
  rw [h.exec_ok size, readBlockOk_eq (s := s.modBay b (Bay.blockDone n)) h.record, if_neg more.ne, if_neg (by simp [runs]),
    delivered, h.block, afterBlock_issueOp h.lt]
  exact congrArg _ (finish_of_settled h.settled)

/-- R58: the bay's operation is over. -/
theorem State.Reads.exec_ends (h : s.Reads b n ref r) (size : data.length = Config.blockBytes) (ends : r.endsRead)
    (delivered : deliver ref (r.blockRead data) ((s.modBay b (Bay.blockDone n)).modRecord ref Command.advanced) =
      s.afterBlock b ref f (Bay.blockDone n) x) :
    exec (.readBlockAnswer b (s.bay b).opNumber (.ok data)) s = .next (finish
      (endReading ref (if r.kind = .read then some r.readOutcome else none) (s.afterBlock b ref f (Bay.lastRead n) x))) := by
  have ended : endService b (s.afterBlock b ref f (Bay.blockDone n) x) = s.afterBlock b ref f (Bay.lastRead n) x :=
    afterBlock_endService h.lt
  rw [h.exec_ok size, readBlockOk_eq (s := s.modBay b (Bay.blockDone n)) h.record, delivered, ended]
  rcases ends with last | ⟨more, stopped⟩
  · rw [if_pos last, Command.readOutcome, if_pos last]
  · rw [if_neg more.ne, if_pos stopped, Command.readOutcome, if_neg more.ne]

/-- R74: the block is bad. -/
theorem State.Reads.exec_mediaError (h : s.Reads b n ref r) :
    exec (.readBlockAnswer b (s.bay b).opNumber .mediaError) s = .next (finish (endReading ref (some .mediaError)
      (({ s with notices := s.weakNotices b (s.bay b).weak n } : State).afterBlock b ref id (Bay.mediaError n)
        (s.link ref.node)))) := by
  have bad : s.badBlock b n = ({ s with notices := s.weakNotices b (s.bay b).weak n } : State).afterBlock b ref id
      (Bay.mediaError n) (s.link ref.node) :=
    afterBlock_bay { s with notices := s.weakNotices b (s.bay b).weak n } b ref (Bay.mediaError n)
  rw [exec_readBlockAnswer h.isBay h.op rfl, readAnswered_mediaError h.lt h.service, bad]

end

theorem Command.counted_advanced_read (r : Command) (read : r.kind = .read) : r.advanced.counted = r.advanced :=
  if_neg (by simp [Command.advanced, read])

/-- A stream one more block of which is done and placed. -/
def Command.streamed (r : Command) : Command := { r with done := r.done + 1, delivered := r.delivered + 1 }

theorem Command.counted_advanced_stream (r : Command) (stream : r.kind = .stream) : r.advanced.counted = r.streamed :=
  if_pos stream

theorem placeable_noWaiting {s : State} {n tag : Nat} (h : s.placeable n) : ∀ w ∈ (s.link n).waitingData, w.tag ≠ tag := by
  rw [h.2]
  exact fun _ mem => nomatch mem

/-- Settles O30: the block's DATA is placed or waits (`State.Reads.deliver_placed`, `State.Reads.deliver_waits`), and the next READ
BLOCK is issued (`State.Reads.exec_next`); or the disk work is over (`State.Reads.exec_ends`, `State.Reads.exec_mediaError`), where
DONE waits (`State.EndsReading.finish_waits`) or is placed (`State.EndsReading.done`), after which the record stays
(`State.EndsReading.finish_keeps`) or is freed (`State.EndsReading.finish_frees`). -/
theorem readBlockAnswered : Obligations.ReadBlockAnswered := by
  refine ⟨?_, fun s b number o hb formed other => exec_readBlockAnswer_other hb formed other, ?_⟩
  · intro s b number block ref r data hb settled size op numbered service record at_ more runs kept next
    subst numbered
    refine ⟨fun room => ?_, fun room presence => ?_⟩
    · have h : s.Reads b block ref r := ⟨hb, settled, op, service, record, at_, kept, room.presence⟩
      refine h.exec_next size more runs (h.deliver_placed (f := fun q =>
        { q with done := q.done + 1, delivered := if q.kind = .stream then q.delivered + 1 else q.delivered }) room ?_)
      by_cases stream : r.kind = .stream <;> simp [Command.counted, Command.advanced, stream]
    · have h : s.Reads b block ref r := ⟨hb, settled, op, service, record, at_, kept, presence⟩
      exact h.exec_next size more runs (h.deliver_waits room)
  · intro s b number block ref r hb settled op numbered service record at_ kept presence
    subst numbered
    have h : s.Reads b block ref r := ⟨hb, settled, op, service, record, at_, kept, presence⟩
    have hn := link_lt_of_presence presence
    constructor
    · intro data size ends back outcome index holds
      have advanced : s.EndsReading ref r Command.advanced back := ⟨settled, record, kept, hn, fun _ => rfl, rfl, rfl, holds.le⟩
      have streamed : s.EndsReading ref r Command.streamed back := ⟨settled, record, kept, hn, fun _ => rfl, rfl, rfl, holds.le⟩
      refine ⟨fun read room => ?_, fun read unreplied room reserved => ?_, fun stream room => ?_, fun stream room => ?_⟩
      · rw [h.exec_ends size ends (h.deliver_waits room), if_pos read]
        exact congrArg _ (advanced.finish_waits
          (.inr ⟨_, List.mem_append_right _ (List.mem_singleton.mpr rfl), rfl⟩))
      · rw [h.exec_ends size ends (h.deliver_placed room (r.counted_advanced_read read)), if_pos read,
          advanced.done (x := (s.link ref.node).placing _) read unreplied (placeable_noWaiting room) presence reserved]
        exact congrArg _ (advanced.finish_keeps (fun _ => rfl) (Nat.sub_ne_zero_of_lt holds))
      · rw [h.exec_ends size ends (h.deliver_placed room (r.counted_advanced_stream stream)), if_neg (by simp [stream])]
        exact congrArg _ (streamed.finish_waits (.inl stream))
      · rw [h.exec_ends size ends (h.deliver_waits room), if_neg (by simp [stream])]
        exact congrArg _ (advanced.finish_waits (.inl stream))
    · intro back holds
      let u : State := { s with notices := s.weakNotices b (s.bay b).weak block }
      have bad : u.EndsReading ref r id back := ⟨settled, record, kept, hn, fun _ => rfl, rfl, rfl, holds⟩
      refine ⟨fun waits => ?_, ?_⟩
      · rw [h.exec_mediaError]
        exact congrArg _ ((bad.finish_waits (waits.imp id fun w => w.2)).trans (State.setLink_same _ _))
      · intro read unreplied sent reserved done
        rw [h.exec_mediaError, bad.done read unreplied sent presence reserved]
        refine ⟨fun fewer => ?_, fun l all loan stays => ?_⟩
        · exact congrArg _ (bad.finish_keeps (fun _ => rfl) (Nat.sub_ne_zero_of_lt fewer))
        · obtain rfl := State.ref_of_record record
          exact congrArg _ (bad.finish_frees loan stays (fun _ => rfl) rfl rfl (Nat.sub_eq_zero_of_le all.ge) all)

end Sys2Proof.Machine
end

section
/-! PROOFS. The buffer balance that every step keeps (O58). -/

namespace Sys2Proof.Machine

/-! ### The balance, by the parts it reads -/

/-- A change that leaves alone the free count, what the records hold and the channels keeps the balance. -/
theorem State.PoolBalanced.of_same {s t : State} (h : s.PoolBalanced) (free : t.poolFree = s.poolFree)
    (records : t.heldByCommands = s.heldByCommands) (channels : t.channels = s.channels) : t.PoolBalanced := by
  obtain ⟨total, empty⟩ := h
  refine ⟨?_, channels ▸ empty⟩
  rw [free, records, State.heldByChannels, channels]
  exact total

/-- Buffers pass between the pool and the command records. -/
theorem State.PoolBalanced.of_lent {s t : State} (h : s.PoolBalanced)
    (lent : t.poolFree + t.heldByCommands = s.poolFree + s.heldByCommands) (channels : t.channels = s.channels) :
    t.PoolBalanced := by
  obtain ⟨total, empty⟩ := h
  refine ⟨?_, channels ▸ empty⟩
  rw [lent, State.heldByChannels, channels]
  exact total

theorem sum_held_set {cs : List Channel} {c : Nat} (x : Channel) (h : c < cs.length) :
    ((cs.set c x).map Channel.held).sum + (cs.getD c Channel.free).held = (cs.map Channel.held).sum + x.held := by
  induction cs generalizing c with
  | nil => simp at h
  | cons a as ih =>
    cases c with
    | zero => simp; omega
    | succ c =>
      have := ih (c := c) (by simpa using h)
      simp only [List.set_cons_succ, List.map_cons, List.sum_cons, List.getD_cons_succ]
      omega

/-- Buffers pass between the pool and channel `c`. -/
theorem State.PoolBalanced.setChannel {s t : State} {c : Nat} {x : Channel} (h : s.PoolBalanced) (hc : c < s.channels.length)
    (channels : t.channels = s.channels.set c x) (records : t.records = s.records)
    (lent : t.poolFree + x.held = s.poolFree + (s.channel c).held) (empty : x.emptyWhenFree) : t.PoolBalanced := by
  obtain ⟨total, empties⟩ := h
  have sum : t.heldByChannels + (s.channel c).held = s.heldByChannels + x.held := by
    rw [State.heldByChannels, channels]
    exact sum_held_set x hc
  refine ⟨?_, fun y hy => ?_⟩
  · rw [State.heldByCommands, records]
    unfold State.heldByCommands at total
    omega
  · rw [channels] at hy
    rcases List.mem_or_eq_of_mem_set hy with hy | rfl
    · exact empties y hy
    · exact empty

/-- A channel number that the part does not have names no channel to change. -/
theorem State.setChannel_of_le {s : State} {c : Nat} (x : Channel) (h : s.channels.length ≤ c) : s.setChannel c x = s := by
  rw [State.setChannel, List.set_eq_of_length_le h]

theorem State.channel_of_le {s : State} {c : Nat} (h : s.channels.length ≤ c) : s.channel c = Channel.free := by
  rw [State.channel, List.getD_eq_getElem?_getD, List.getElem?_eq_none h, Option.getD_none]

theorem State.PoolBalanced.channelEmpty {s : State} (h : s.PoolBalanced) (c : Nat) : (s.channel c).emptyWhenFree := by
  rcases Nat.lt_or_ge c s.channels.length with hc | hc
  · rw [State.channel, List.getD_eq_getElem _ _ hc]
    exact h.2 _ (List.getElem_mem hc)
  · rw [State.channel_of_le hc]
    exact fun _ => rfl

/-! ### What passes buffers -/

/-- A record that returns buffers holds as many fewer as the free count rises by. -/
theorem giveBack_poolBalanced (ref : CommandRef) (n : Nat) {s : State} (h : s.PoolBalanced) :
    (giveBack ref n s).PoolBalanced := by
  unfold giveBack
  split
  · exact h
  · rename_i r found
    refine h.of_lent ?_ rfl
    have := sum_held_modifyFirst _ (fun r' => { r' with held := r'.held - min n r.held }) _ r found
    dsimp only [State.heldByCommands, State.modRecord] at this ⊢
    omega

theorem lend_poolBalanced (ref : CommandRef) (n : Nat) {s : State} (h : s.PoolBalanced) :
    (lend ref n s).PoolBalanced := by
  unfold lend
  split
  · exact h
  · rename_i r found
    refine h.of_lent ?_ rfl
    have := sum_held_modifyFirst _ (fun r' => { r' with held := r'.held + min n s.poolFree }) _ r found
    dsimp only [State.heldByCommands, State.modRecord] at this ⊢
    omega

theorem lendChannel_poolBalanced (c n : Nat) {s : State} (h : s.PoolBalanced) : (lendChannel c n s).PoolBalanced := by
  unfold lendChannel
  split
  · rename_i hc
    refine h.setChannel hc.1 rfl rfl ?_ fun free => ?_
    · dsimp only
      omega
    · exact absurd hc.2 (by simpa using free)
  · exact h

theorem giveBackChannel_poolBalanced (c : Nat) {s : State} (h : s.PoolBalanced) : (giveBackChannel c s).PoolBalanced := by
  unfold giveBackChannel State.modChannel
  rcases Nat.lt_or_ge c s.channels.length with hc | hc
  · exact h.setChannel hc rfl rfl rfl fun _ => rfl
  · rw [State.setChannel_of_le _ hc, State.channel_of_le hc]
    exact h

/-! ### The moves -/

theorem place_poolBalanced (l : Nat) (o : OutRecord) {s : State} (h : s.PoolBalanced) : (place l o s).PoolBalanced := by
  unfold place
  split
  · exact h.of_same rfl rfl rfl
  · exact h

theorem placeReserved_poolBalanced (l : Nat) (o : OutRecord) {s : State} (h : s.PoolBalanced) :
    (placeReserved l o s).PoolBalanced := by
  unfold placeReserved
  split
  · exact h.of_same rfl rfl rfl
  · exact h

theorem EndMove.poolBalanced {s t : State} (m : EndMove s t) (h : s.PoolBalanced) : t.PoolBalanced := by
  cases m with
  | place l o => exact place_poolBalanced l o h
  | placeReserved l o => exact placeReserved_poolBalanced l o h
  | giveBack ref n => exact giveBack_poolBalanced ref n h
  | mark ref f hf => exact h.of_same rfl (sum_held_modifyFirst_same _ f _ fun r found => (hf r found).1) rfl
  | erase ref none => exact h.of_same rfl (sum_held_eraseP _ _ none) rfl
  | slot | drop | freeTwin | owe => exact h.of_same rfl rfl rfl

theorem Command.tick_held (r : Command) : r.tick.held = r.held := by
  unfold Command.tick
  split <;> rfl

theorem Move.poolBalanced {s t : State} (m : Move s t) (h : s.PoolBalanced) : t.PoolBalanced := by
  cases m with
  | grant m =>
    cases m with
    | ends m => exact m.poolBalanced h
    | waits | stale | scanned => exact h.of_same rfl rfl rfl
  | channel c x hx =>
    obtain ⟨empty, held⟩ := hx (h.channelEmpty c)
    rcases Nat.lt_or_ge c s.channels.length with hc | hc
    · exact h.setChannel hc rfl rfl (congrArg (s.poolFree + ·) held) empty
    · rw [State.setChannel_of_le x hc]
      exact h
  | giveBackChannel c => exact giveBackChannel_poolBalanced c h
  | lendChannel c n => exact lendChannel_poolBalanced c n h
  | lend ref n => exact lend_poolBalanced ref n h
  | record r none => exact h.of_same rfl (by simp [State.heldByCommands, none]) rfl
  | tick =>
    refine h.of_same rfl ?_ rfl
    simp only [State.heldByCommands, tickState, List.map_map]
    exact congrArg List.sum (List.map_congr_left fun r _ => r.tick_held)
  | link | bay | bayState | twin | poolWait | spinQueue | queue | remask | settings | notices | store | cause =>
    exact h.of_same rfl rfl rfl

theorem Chain.poolBalanced {s t : State} (c : Chain s t) (h : s.PoolBalanced) : t.PoolBalanced := by
  induction c with
  | refl => exact h
  | tail _ m ih => exact m.poolBalanced ih

/-! ### The resets (Table 11-1) -/

/-- After the clearing all 384 buffers are free, and the channels are free (R79, R85, R151). -/
theorem clearService_poolBalanced (s : State) : (clearService s).PoolBalanced :=
  ⟨rfl, fun c hc _ => by rw [List.eq_of_mem_replicate hc]; rfl⟩

theorem warmReset_poolBalanced (s : State) : (warmReset s).PoolBalanced :=
  (warmReset_chain s).poolBalanced (clearService_poolBalanced s)

theorem powerOn_poolBalanced (s : State) : (powerOn s).PoolBalanced :=
  Chain.poolBalanced ((eachBay_chain _ powerBay_chain _).trans (placeRestarted_chain _))
    ((clearService_poolBalanced s).of_same (t := loadSettings (poweredBase s)) rfl rfl rfl)

/-- A command keeps the balance: by its moves, or as a reset. -/
theorem exec_poolBalanced (c : Instr) {s t : State} (h : s.PoolBalanced) (e : exec c s = .next t) : t.PoolBalanced := by
  by_cases r : isReset c = false
  · exact Chain.poolBalanced (exec_chain c s r t e) h
  cases c <;> simp only [isReset, not_true_eq_false] at r
  case powerOn =>
    obtain rfl : powerOn s = t := Host.Outcome.next.inj e
    exact powerOn_poolBalanced s
  case pinReset =>
    obtain rfl : warmReset _ = t := Host.Outcome.next.inj e
    exact warmReset_poolBalanced _
  case resetShelf =>
    change execResetShelf s = _ at e
    unfold execResetShelf at e
    split at e
    · cases e; exact h
    · obtain rfl := Host.Outcome.next.inj e
      exact warmReset_poolBalanced _

/-- Settles O58: an invariant of every step, move by move (`exec_chain`), and met anew by each of the three resets. -/
theorem poolBalanceKept : Obligations.PoolBalanceKept := by
  intro s t h e
  rcases step_cases e with rfl | ⟨c, rest, _, e⟩
  · exact h
  · exact exec_poolBalanced (s := { s with pending := rest }) c (h.of_same rfl rfl rfl) e

end Sys2Proof.Machine
end

section
/-! PROOFS. A READ, STREAM or WRITE that fails a check (O20). -/

namespace Sys2Proof.Machine

/-! ### The bodies (R64) -/

theorem exactly_bind {α : Type} (body : List Byte) (n : Nat) (k : Unit → Form α) :
    (exactly body n >>= k) = if body.length = n then k () else .error (rejectLength body n) := by
  unfold exactly
  split <;> rfl

/-- R64: the checks of a READ's or a WRITE's body, in their order. -/
theorem blocksForm_eq (body : List Byte) : blocksForm body =
    if body.length = 7 then
      if ¬(1 ≤ field body 6 1 ∧ field body 6 1 ≤ 32) then .error (rejectField 6)
      else .ok { id := loanIdAt body 0, first := field body 2 4, count := field body 6 1 }
    else .error (rejectLength body 7) := by
  simp only [blocksForm, exactly_bind, demand_bind, Bool.and_eq_true, decide_eq_true_eq]
  rfl

/-- R64: the checks of a STREAM's body, in their order. -/
theorem streamForm_eq (body : List Byte) : streamForm body =
    if body.length = 9 then
      if ¬1 ≤ field body 6 2 then .error (rejectField 6)
      else if ¬(1 ≤ field body 8 1 ∧ field body 8 1 ≤ 32) then .error (rejectField 8)
      else .ok { id := loanIdAt body 0, first := field body 2 4, total := field body 6 2, segSize := field body 8 1 }
    else .error (rejectLength body 9) := by
  simp only [streamForm, exactly_bind, demand_bind, Bool.and_eq_true, decide_eq_true_eq]
  rfl

/-! ### What the checks answer (R64, R65) -/

/-- The answer of the first check that fails: of the tag, of the body's form, or one that `verdict` finds. -/
def State.refusal {α : Type} (s : State) (n : Nat) (f : Frame) (form : List Byte → Form α) (verdict : α → Option Record) :
    Option Record :=
  match s.commandHeader n f with
  | some r => some (.reject r.reason r.place r.offset f.kind)
  | none => match form f.body with
    | .error r => some (.reject r.reason r.place r.offset f.kind)
    | .ok q => verdict q

/-- What admission answers a READ or a WRITE with. -/
def State.blocksAdmission (s : State) (n : Nat) (kind : CommandKind) (q : BlocksBody) : Option Record :=
  (s.admission n kind q.id q.first q.count).map (Record.done · 0)

/-- What admission answers a STREAM with. -/
def State.streamAdmission (s : State) (n : Nat) (q : StreamBody) : Option Record :=
  (s.admission n .stream q.id q.first q.total).map (Record.streamEnd · 0)

section
variable {α : Type} {s : State} {n : Nat} {f : Frame} {form : List Byte → Form α} {verdict : α → Option Record} {out : Record}

theorem refusal_header {r : Reject} (h : s.commandHeader n f = some r) :
    s.refusal n f form verdict = some (.reject r.reason r.place r.offset f.kind) := by
  simp only [State.refusal, h]

theorem refusal_form {r : Reject} (h : s.commandHeader n f = none) (hf : form f.body = .error r) :
    s.refusal n f form verdict = some (.reject r.reason r.place r.offset f.kind) := by
  simp only [State.refusal, h, hf]

theorem refusal_admission {q : α} (h : s.commandHeader n f = none) (hf : form f.body = .ok q) :
    s.refusal n f form verdict = verdict q := by
  simp only [State.refusal, h, hf]

/-- A check that answers is that of the tag, or, that passing, of the body's form, or, both passing, one that `verdict` finds. -/
theorem refusal_cases (h : s.refusal n f form verdict = some out) :
    (∃ r, s.commandHeader n f = some r ∧ out = .reject r.reason r.place r.offset f.kind) ∨
    (∃ r, s.commandHeader n f = none ∧ form f.body = .error r ∧ out = .reject r.reason r.place r.offset f.kind) ∨
    ∃ q, s.commandHeader n f = none ∧ form f.body = .ok q ∧ verdict q = some out := by
  unfold State.refusal at h
  split at h
  · exact .inl ⟨_, ‹_›, (Option.some.inj h).symm⟩
  · split at h
    · exact .inr (.inl ⟨_, ‹_›, ‹_›, (Option.some.inj h).symm⟩)
    · exact .inr (.inr ⟨_, ‹_›, ‹_›, h⟩)

theorem readAct_refused (h : s.refusal n f blocksForm (s.blocksAdmission n .read) = some out) :
    readAct n f s = reply n f out s := by
  rcases refusal_cases h with ⟨r, header, rfl⟩ | ⟨r, header, form, rfl⟩ | ⟨q, header, form, admits⟩
  · simp only [readAct, header, reject]
  · simp only [readAct, header, form, reject]
  · obtain ⟨st, fails, rfl⟩ := Option.map_eq_some_iff.mp admits
    simp only [readAct, header, form, fails]

theorem streamAct_refused (h : s.refusal n f streamForm (s.streamAdmission n) = some out) :
    streamAct n f s = reply n f out s := by
  rcases refusal_cases h with ⟨r, header, rfl⟩ | ⟨r, header, form, rfl⟩ | ⟨q, header, form, admits⟩
  · simp only [streamAct, header, reject]
  · simp only [streamAct, header, form, reject]
  · obtain ⟨st, fails, rfl⟩ := Option.map_eq_some_iff.mp admits
    simp only [streamAct, header, form, fails]

/-- A WRITE that is refused leaves the queue as it is answered. -/
theorem writeAct_refused (h : s.refusal n f blocksForm (s.blocksAdmission n .write) = some out) :
    writeAct n f s = reply n f out (popHead n s) := by
  rcases refusal_cases h with ⟨r, header, rfl⟩ | ⟨r, header, form, rfl⟩ | ⟨q, header, form, admits⟩
  · simp only [writeAct, header, reject]
  · simp only [writeAct, header, form, reject]
  · obtain ⟨st, fails, rfl⟩ := Option.map_eq_some_iff.mp admits
    simp only [writeAct, header, form, fails]

/-! ### The commands -/

theorem exec_read (hn : isNode n = true) (h : s.CanTake n kindRead 1 f) :
    exec (.read n) s = .next (finish (readAct n f (s.took n 1))) := h.onNode (needs := oneEntry) hn _

theorem exec_stream (hn : isNode n = true) (h : s.CanTake n kindStream 1 f) :
    exec (.stream n) s = .next (finish (streamAct n f (s.took n 1))) := h.onNode (needs := oneEntry) hn _

/-- The link with one entry more reserved, its head frame still standing there. -/
def Link.reserving1 (x : Link) : Link := { x with reserved := x.reserved + 1 }

/-- R66: a WRITE is checked as it stands at the head, its reservation made. -/
theorem exec_write (hn : isNode n = true) (h : s.CanTake n kindWrite 1 f) :
    exec (.write n) s = .next (finish (writeAct n f (s.modLink n Link.reserving1))) := by
  obtain ⟨rest, inbound⟩ := List.head?_eq_some_iff.mp h.head
  have head : s.writeAtHead n = some f := by
    simp [State.writeAtHead, inbound, h.isKind, h.presence, h.notHeld, h.room]
  show execWrite n s = _
  rw [execWrite, onNode_eq hn, head]
  rfl

/-- The head frame that leaves after its entry has been reserved has been taken with that entry. -/
theorem popHead_reserving1 (h : s.CanTake n kindWrite 1 f) : popHead n (s.modLink n Link.reserving1) = s.took n 1 := by
  have held : { (s.link n).reserving 1 with heldWrite := false } = (s.link n).reserving 1 := by
    have := h.notHeld
    simp only [Link.reserving, Link.taken]
    rw [← this]
  rw [popHead, State.modLink, State.modLink, State.setLink_setLink, State.link_setLink_self _ _ _ h.lt, State.took, ← held]
  rfl

theorem exec_read_refused (hn : isNode n = true) (h : s.CanTake n kindRead 1 f)
    (hr : s.refusal n f blocksForm (s.blocksAdmission n .read) = some out) : exec (.read n) s = .next (s.answer n f out) := by
  rw [exec_read hn h, readAct_refused (s := s.took n 1) hr, finish_reply_took h.settled h.presence]

theorem exec_stream_refused (hn : isNode n = true) (h : s.CanTake n kindStream 1 f)
    (hr : s.refusal n f streamForm (s.streamAdmission n) = some out) : exec (.stream n) s = .next (s.answer n f out) := by
  rw [exec_stream hn h, streamAct_refused (s := s.took n 1) hr, finish_reply_took h.settled h.presence]

theorem exec_write_refused (hn : isNode n = true) (h : s.CanTake n kindWrite 1 f)
    (hr : s.refusal n f blocksForm (s.blocksAdmission n .write) = some out) : exec (.write n) s = .next (s.answer n f out) := by
  rw [exec_write hn h, writeAct_refused (s := s.modLink n Link.reserving1) hr, popHead_reserving1 h,
    finish_reply_took h.settled h.presence]

end

/-- Settles O20: each clause is the first check that fails (`refusal_header`, `refusal_form`, `refusal_admission`). -/
theorem admissionAnswers : Obligations.AdmissionAnswers := by
  intro s n f hn
  refine ⟨fun q st h passes form fails => ?_, fun q st h passes form fails => ?_, fun q st h passes form fails => ?_,
    fun c kind mem h => ?_, fun c kind layout mem h passes other => ?_, fun c kind mem h passes long count => ?_,
    fun h passes long => ⟨fun total => ?_, fun total size => ?_⟩⟩
  · exact exec_read_refused hn h ((refusal_admission passes form).trans (by simp [State.blocksAdmission, fails]))
  · exact exec_stream_refused hn h ((refusal_admission passes form).trans (by simp [State.streamAdmission, fails]))
  · exact exec_write_refused hn h ((refusal_admission passes form).trans (by simp [State.blocksAdmission, fails]))
  · have fails (r : Reject) (hr : s.commandHeader n f = some r) :
        exec c s = .next (s.answer n f (.reject r.reason r.place r.offset kind)) := by
      rw [← h.isKind]
      simp only [List.mem_cons, Prod.mk.injEq, List.not_mem_nil, or_false] at mem
      rcases mem with ⟨rfl, rfl⟩ | ⟨rfl, rfl⟩ | ⟨rfl, rfl⟩
      · exact exec_read_refused hn h (refusal_header hr)
      · exact exec_stream_refused hn h (refusal_header hr)
      · exact exec_write_refused hn h (refusal_header hr)
    refine ⟨fun tag => fails rejectTag ?_, fun tag pending => fails rejectDup ?_⟩
    · rw [State.commandHeader, if_pos tag]
    · rw [State.commandHeader, if_neg tag, if_pos pending]
  · rw [← h.isKind]
    simp only [List.mem_cons, Prod.mk.injEq, List.not_mem_nil, or_false] at mem
    rcases mem with ⟨rfl, rfl, rfl⟩ | ⟨rfl, rfl, rfl⟩ | ⟨rfl, rfl, rfl⟩
    · exact exec_read_refused hn h (refusal_form passes ((blocksForm_eq _).trans (if_neg other)))
    · exact exec_stream_refused hn h (refusal_form passes ((streamForm_eq _).trans (if_neg other)))
    · exact exec_write_refused hn h (refusal_form passes ((blocksForm_eq _).trans (if_neg other)))
  · have form : blocksForm f.body = .error (rejectField 6) := by
      rw [blocksForm_eq, if_pos long, if_pos (by omega)]
    rw [← h.isKind]
    simp only [List.mem_cons, Prod.mk.injEq, List.not_mem_nil, or_false] at mem
    rcases mem with ⟨rfl, rfl⟩ | ⟨rfl, rfl⟩
    · exact exec_read_refused hn h (refusal_form passes form)
    · exact exec_write_refused hn h (refusal_form passes form)
  · have form : streamForm f.body = .error (rejectField 6) := by
      rw [streamForm_eq, if_pos long, if_pos (by omega)]
    rw [exec_stream_refused hn h (refusal_form passes form), h.isKind]
    rfl
  · have form : streamForm f.body = .error (rejectField 8) := by
      rw [streamForm_eq, if_pos long, if_neg (by omega), if_pos (by omega)]
    rw [exec_stream_refused hn h (refusal_form passes form), h.isKind]
    rfl

end Sys2Proof.Machine
end

section
/-! PROOFS. Waiting DATA that takes a free entry (O26). -/

namespace Sys2Proof.Machine

section
variable {s : State} {n : Nat} {w : WaitingData} {rest : List WaitingData} {r : Command} {x : Link}

/-- The link after the oldest of its waiting DATA has taken a free entry. -/
def Link.placingWaiting (x : Link) (w : WaitingData) (rest : List WaitingData) : Link :=
  { x.placing w.out with waitingData := rest }

theorem State.hasRoom_presence (h : s.hasRoom n = true) : (s.link n).presence = true := by
  simp only [State.hasRoom, Bool.and_eq_true] at h
  exact h.1

/-- R72, R89: the oldest waiting DATA takes the entry, and the DONE of its READ may follow. -/
theorem exec_dataPlaceWaiting (hn : isNode n = true) (room : s.hasRoom n = true) (waiting : (s.link n).waitingData = w :: rest) :
    exec (.dataPlaceWaiting n) s = .next (finish (settleRead { node := n, tag := w.tag }
      ((s.modRecord { node := n, tag := w.tag } Command.counted).setLink n ((s.link n).placingWaiting w rest)))) := by
  have link (x : Link) : (s.setLink n x).link n = x :=
    State.link_setLink_self s n x (link_lt_of_presence (State.hasRoom_presence room))
  have free : (s.setLink n { s.link n with waitingData := rest }).hasRoom n = true := by
    rw [State.hasRoom, link]
    exact room
  have placed : place n w.out (s.modLink n fun x => { x with waitingData := rest }) =
      s.setLink n ((s.link n).placingWaiting w rest) := by
    rw [State.modLink, place_eq free, link, State.setLink_setLink]
    rfl
  show execDataPlaceWaiting n s = _
  rw [execDataPlaceWaiting, onNode_eq hn, if_pos room]
  simp only [placeWaiting, waiting]
  exact congrArg _ (congrArg finish
    (congrArg (fun u : State => settleRead { node := n, tag := w.tag } (u.modRecord { node := n, tag := w.tag } Command.counted))
      placed))

theorem dataWaits_setLink (h : (s.link n).presence = true) (tag : Nat) :
    (s.setLink n x).dataWaits { node := n, tag := tag } = x.waitingData.any fun w => w.tag == tag := by
  rw [State.dataWaits, State.link_setLink_self s n x (link_lt_of_presence h)]

end

/-- Settles O26: the DATA is placed (`exec_dataPlaceWaiting`); the DONE of its READ waits (`settleRead_waits`, or with no outcome
yet), or follows (`settleRead_done`). -/
theorem waitingDataPlaced : Obligations.WaitingDataPlaced := by
  intro s n w rest r settled hn room waiting record placed
  have presence := State.hasRoom_presence room
  have places := exec_dataPlaceWaiting hn room waiting
  have counted (read : r.kind = .read) : s.modRecord { node := n, tag := w.tag } Command.counted = s := by
    refine State.modRecord_same fun q hq => ?_
    cases record.symm.trans hq
    simp [Command.counted, read]
  refine ⟨fun stream => ?_, fun read stays => ?_, fun st read outcome unreplied last holds reserved kept => ?_⟩
  · have delivered := State.modRecord_congr (f := Command.counted) (g := fun q => { q with delivered := q.delivered + 1 }) record
      (by simp [Command.counted, stream])
    have streams : ((s.modRecord { node := n, tag := w.tag } fun q => { q with delivered := q.delivered + 1 }).setLink n
        placed).record { node := n, tag := w.tag } = some { r with delivered := r.delivered + 1 } :=
      State.record_modRecord_some (s := s) record fun _ => rfl
    rw [places, delivered]
    exact congrArg _ ((congrArg finish (settleRead_waits streams (.inl stream))).trans (finish_of_settled settled))
  · have waits : settleRead { node := n, tag := w.tag } (s.setLink n placed) = s.setLink n placed := by
      rcases stays with goesOn | ⟨v, mem, tag⟩
      · have same : (s.setLink n placed).record { node := n, tag := w.tag } = some r := record
        simp only [settleRead, same, read, goesOn]
      · refine settleRead_waits (s := s.setLink n placed) record (.inr ?_)
        rw [dataWaits_setLink presence]
        exact List.any_eq_true.mpr ⟨v, mem, by simp [tag]⟩
    rw [places, counted read]
    exact congrArg _ ((congrArg finish waits).trans (finish_of_settled settled))
  · have none : (s.setLink n placed).dataWaits { node := n, tag := w.tag } = false := by
      rw [dataWaits_setLink presence]
      exact List.any_eq_false.mpr fun v mem => by simpa using last v mem
    have link := State.link_setLink_self s n placed (link_lt_of_presence presence)
    have replied := finalReply_eq (s := s.setLink n placed) record kept (by rw [link]; exact presence)
      (by rw [link]; exact reserved) (.done st r.done)
    have answered : ((s.setLink n (placed.replying { tag := w.tag, record := .done st r.done })).modRecord
        { node := n, tag := w.tag } Command.answered).record { node := n, tag := w.tag } = some r.answered :=
      State.record_modRecord_some (s := s) record fun _ => rfl
    have stays := freeIfDone_stays answered (.inr holds.ne')
    rw [places, counted read]
    refine congrArg _ ((congrArg finish ?_).trans (finish_of_settled settled))
    refine (settleRead_done (s := s.setLink n placed) record read outcome unreplied none).trans ?_
    rw [replied, link, State.setLink_setLink]
    exact stays

end Sys2Proof.Machine
end

section
/-! PROOFS. CANCEL (O23). -/

namespace Sys2Proof.Machine

section
variable {s : State} {n : Nat} {f : Frame} {r : Command} {l : Loan} {st : Status} {x : Link}

/-! ### Ends at once (R76, R90) -/

/-- Command `r` can be replied to after the link of its node has been changed to `x`, if `x` can take the reply. -/
theorem canReply_setLink (record : s.record r.ref = some r) (loan : s.loan r.loan.slot = some l) (open_ : l.endReason = none)
    (lt : r.node < s.links.length) (presence : x.presence = true) (reserved : 0 < x.reserved) :
    (s.setLink r.node x).CanReply r l := by
  have link := State.link_setLink_self s r.node x lt
  exact ⟨record, loan, by simp [open_], by rw [link]; exact presence, by rw [link]; exact reserved⟩

/-- The state after a reply to command `r` into a reservation of link `x`. -/
theorem replied_setLink (lt : r.node < s.links.length) (out : Record) : (s.setLink r.node x).replied r out =
    s.setLink r.node (x.replying { tag := r.tag, record := out }) := by
  rw [State.replied, State.link_setLink_self s r.node x lt, State.setLink_setLink]

/-- A READ or WRITE of an ACTIVE loan that ends at once is answered, and freed; its loan stays. -/
theorem State.CanReply.endDone_active (h : s.CanReply r l) (active : l.state = .active) (blocks : Nat) :
    Machine.endDone r.ref st blocks s = (s.replied r (.done st blocks)).withoutRecord r l := by
  rw [h.endDone]
  exact endIfIdle_stays (State.loan_withoutRecord (s := s.replied r (.done st blocks)) h.loan) (.inl active)

/-- A stream of an ACTIVE loan that ends with all its DATA sent is answered, and freed; its loan stays. -/
theorem State.CanReply.endStream_active (h : s.CanReply r l) (active : l.state = .active) (sent : r.held = 0) :
    Machine.endStream r.ref st s = (s.replied r (.streamEnd st r.delivered)).withoutRecord r l := by
  rw [h.endStream_frees st sent]
  exact endIfIdle_stays (State.loan_withoutRecord (s := s.replied r (.streamEnd st r.delivered)) h.loan) (.inl active)

/-! ### The test (R77) -/

/-- CANCEL, as its need of entries stands at its taking. -/
theorem exec_cancel {k : Nat} (hn : isNode n = true) (h : s.CanTake n kindCancel k f) (needs : s.cancelNeeds n = k) :
    exec (.cancel n) s = .next (finish (cancelAct n f (s.took n k))) := by
  subst needs
  exact h.onNode (needs := fun _ => s.cancelNeeds n) hn _

theorem cancelNeeds_eq (head : (s.link n).inbound.head? = some f) :
    s.cancelNeeds n = if (s.cancelNames n f).isSome then 0 else 1 := by
  obtain ⟨rest, inbound⟩ := List.head?_eq_some_iff.mp head
  simp only [State.cancelNeeds, inbound]

/-- R77: a CANCEL that names no record of its node is rejected. -/
theorem exec_cancel_rejected (hn : isNode n = true) (h : s.CanTake n kindCancel 1 f) (none : s.cancelNames n f = none) :
    exec (.cancel n) s = .next (s.answer n f
      (.reject (cancelReject f).reason (cancelReject f).place (cancelReject f).offset kindCancel)) := by
  have act : cancelAct n f (s.took n 1) = reject n f (cancelReject f) (s.took n 1) := by
    have same : (s.took n 1).cancelNames n f = Option.none := none
    simp only [cancelAct, same]
  rw [exec_cancel hn h (by rw [cancelNeeds_eq h.head, none]; rfl), act, reject, finish_reply_took h.settled h.presence, h.isKind]

/-- R78: a CANCEL acts on the record it names, no entry being reserved. -/
theorem exec_cancel_named (hn : isNode n = true) (h : s.CanTake n kindCancel 0 f) (named : s.cancelNames n f = some r) :
    exec (.cancel n) s = .next (finish (cancelRecord r (s.setLink n (s.link n).taken))) := by
  have act : cancelAct n f (s.took n 0) = cancelRecord r (s.setLink n (s.link n).taken) := by
    have same : (s.took n 0).cancelNames n f = some r := named
    simp only [cancelAct, same]
    rfl
  rw [exec_cancel hn h (by rw [cancelNeeds_eq h.head, named]; rfl), act]

/-! ### By the record's state (R78, R92) -/

/-- A QUEUED READ or WRITE leaves its loan's placed bay, and ends. -/
theorem State.CanReply.cancelRecord_queued (h : s.CanReply r l) (active : l.state = .active) (kind : r.kind ≠ .stream)
    (queued : r.state = .queued) :
    cancelRecord r s = ((s.modBay l.placedBay (Bay.dropping r.ref)).replied r (.done .cancelled 0)).withoutRecord r l := by
  have ends : cancelRecord r s = Machine.endDone r.ref .cancelled 0 (Machine.ringDrop l.placedBay r.ref s) := by
    simp only [cancelRecord, h.loan, queued]
  exact ends.trans ((h.ringDrop l.placedBay r.ref).endDone_active active 0)

/-- A GATHERING write ends. -/
theorem State.CanReply.cancelRecord_gathering (h : s.CanReply r l) (active : l.state = .active)
    (gathering : r.state = .gathering) : cancelRecord r s = (s.replied r (.done .cancelled 0)).withoutRecord r l := by
  have ends : cancelRecord r s = Machine.endDone r.ref .cancelled 0 s := by simp only [cancelRecord, gathering]
  exact ends.trans (h.endDone_active active 0)

/-- A stream whose segment is QUEUED leaves its loan's placed bay, and ends; its record goes with its last DATA. -/
theorem State.CanReply.cancelRecord_queuedStream (h : s.CanReply r l) (active : l.state = .active) (kind : r.kind = .stream)
    (queued : r.state = .queued) :
    let u := (s.modBay l.placedBay (Bay.dropping r.ref)).replied r (.streamEnd .cancelled r.delivered)
    cancelRecord r s = if r.held = 0 then u.withoutRecord r l else u.modRecord r.ref Command.streamEnded := by
  have ends : cancelRecord r s = Machine.endStream r.ref .cancelled (Machine.ringDrop l.placedBay r.ref s) := by
    simp only [cancelRecord, h.loan, kind, queued]
  split
  · exact ends.trans ((h.ringDrop l.placedBay r.ref).endStream_active active ‹_›)
  · exact ends.trans ((h.ringDrop l.placedBay r.ref).endStream_keeps .cancelled (Nat.pos_of_ne_zero ‹_›))

/-- A READ or WRITE that has been chosen goes on. -/
theorem cancelRecord_chosen (kind : r.kind ≠ .stream) (chosen : r.chosen) : cancelRecord r s = s := by
  rcases chosen with state | state | state <;> simp [cancelRecord, kind, state]

/-- A stream whose segment has been chosen has its closing set, unless it has one or its STREAM END has been placed. -/
theorem cancelRecord_chosenStream (kind : r.kind = .stream) (chosen : r.chosen) : cancelRecord r s =
    if r.replied || r.closing.isSome then s
    else s.modRecord r.ref fun r => { r with closing := some .cancelled } := by
  rcases chosen with state | state | state <;> simp only [cancelRecord, kind, state]

end

/-- Settles O23: the test (`exec_cancel_rejected`, `exec_cancel_named`), then the record's kind and state. -/
theorem cancelActsByState : Obligations.CancelActsByState := by
  intro s n f hn ref cancelled
  refine ⟨fun r l tag long record h loan active open_ => ?_, fun h => ⟨fun tag => ?_, fun tag long => ?_, fun tag long none => ?_⟩⟩
  · have name : r.ref = ref := State.ref_of_record record
    obtain rfl : r.node = n := congrArg CommandRef.node name
    have tagged : r.tag = field f.body 0 1 := congrArg CommandRef.tag name
    have lt := h.lt
    have acts : exec (.cancel r.node) s = .next (finish (cancelRecord r (s.setLink r.node (s.link r.node).taken))) :=
      exec_cancel_named hn h ((if_pos ⟨tag, long⟩).trans record)
    have replied (out : Record) : (s.setLink r.node (s.link r.node).taken).replied r out =
        s.setLink r.node ((s.link r.node).taken.replying { tag := field f.body 0 1, record := out }) := by
      rw [replied_setLink lt, ← tagged]
    have can (reserved : 0 < (s.link r.node).reserved) : (s.setLink r.node (s.link r.node).taken).CanReply r l :=
      canReply_setLink (name ▸ record) loan open_ lt h.presence reserved
    rw [← name]
    refine ⟨fun kind queued reserved => ?_, fun gathering reserved => ?_, fun kind chosen => ?_,
      fun kind chosen => ⟨fun unreplied closing => ?_, fun past => ?_⟩,
      fun kind queued reserved => ⟨fun sent => ?_, fun holds => ?_⟩⟩
    · rw [acts, (can reserved).cancelRecord_queued active kind queued]
      refine congrArg _ (Eq.trans (finish_of_settled h.settled) ?_)
      exact congrArg (fun u : State => (u.modBay l.placedBay (Bay.dropping r.ref)).withoutRecord r l) (replied _)
    · rw [acts, (can reserved).cancelRecord_gathering active gathering, replied]
      exact congrArg _ (finish_of_settled h.settled)
    · rw [acts, cancelRecord_chosen kind chosen]
      exact congrArg _ (finish_of_settled h.settled)
    · rw [acts, cancelRecord_chosenStream kind chosen, if_neg (by simp [unreplied, closing])]
      exact congrArg _ (finish_of_settled h.settled)
    · rw [acts, cancelRecord_chosenStream kind chosen, if_pos (by simpa [Option.isSome_iff_ne_none] using past)]
      exact congrArg _ (finish_of_settled h.settled)
    · rw [acts, (can reserved).cancelRecord_queuedStream active kind queued, if_pos sent]
      refine congrArg _ (Eq.trans (finish_of_settled h.settled) ?_)
      exact congrArg (fun u : State => (u.modBay l.placedBay (Bay.dropping r.ref)).withoutRecord r l) (replied _)
    · rw [acts, (can reserved).cancelRecord_queuedStream active kind queued, if_neg holds.ne']
      refine congrArg _ (Eq.trans (finish_of_settled h.settled) ?_)
      exact congrArg (fun u : State => (u.modBay l.placedBay (Bay.dropping r.ref)).modRecord r.ref Command.streamEnded)
        (replied _)
  · have none : s.cancelNames n f = Option.none := if_neg fun c => c.1 tag
    rw [exec_cancel_rejected hn h none, cancelReject, if_pos tag]
    rfl
  · have none : s.cancelNames n f = Option.none := if_neg fun c => long c.2
    rw [exec_cancel_rejected hn h none, cancelReject, if_neg tag, if_pos long]
    rfl
  · have unnamed : s.cancelNames n f = Option.none := (if_pos ⟨tag, long⟩).trans none
    rw [exec_cancel_rejected hn h unnamed, cancelReject, if_neg tag, if_neg (not_not.mpr long)]
    rfl

end Sys2Proof.Machine
end

section
/-! PROOFS. The record of a new command, and a WRITE that passes its checks (O21). -/

namespace Sys2Proof.Machine

section
variable {s : State} {n : Nat} {f : Frame} {q : BlocksBody} {r : Command} {l : Loan}

/-! ### The record of a new command (R61, R79) -/

/-- A tag that is not pending names no command record of the node. -/
theorem record_of_tagPending {tag : Nat} (h : s.tagPending n tag = false) : s.record { node := n, tag := tag } = none := by
  simp only [State.tagPending, Bool.or_eq_false_iff] at h
  obtain ⟨⟨-, records⟩, -⟩ := h
  refine List.find?_eq_none.mpr fun x mem same => ?_
  have other := List.any_eq_false.mp records x mem
  simp only [beq_iff_eq, Command.ref, CommandRef.mk.injEq] at same
  simp [same] at other

/-- A command whose tag passes its checks is no record yet. -/
theorem record_of_commandHeader (h : s.commandHeader n f = none) : s.record { node := n, tag := f.tag } = none := by
  unfold State.commandHeader at h
  split_ifs at h with tag pending
  exact record_of_tagPending (by simpa using pending)

/-- Under a loan of the table a record is made. -/
theorem makeRecord_eq (loan : s.loan r.loan.slot = some l) : makeRecord r s = s.withRecord r l := by
  have same : ({ s with records := s.records ++ [r] } : State).loan r.loan.slot = some l := loan
  simp only [makeRecord, same] <;> rfl

theorem record_withRecord (fresh : s.record r.ref = none) : (s.withRecord r l).record r.ref = some r := by
  show (s.records ++ [r]).find? _ = _
  rw [List.find?_append, show s.records.find? _ = none from fresh]
  simp

/-- Changing the record that has been made. -/
theorem modRecord_withRecord (fresh : s.record r.ref = none) {g : Command → Command} (loan : (g r).loan = r.loan) :
    (s.withRecord r l).modRecord r.ref g = s.withRecord (g r) l := by
  have others : ∀ x ∈ s.records, (x.ref == r.ref) = false := fun x mem => by
    simpa using List.find?_eq_none.mp fresh x mem
  have changed : modifyFirst (fun x => x.ref == r.ref) g (s.records ++ [r]) = s.records ++ [g r] :=
    modifyFirst_append others (beq_self_eq_true r.ref)
  show ({ s.withRecord r l with records := modifyFirst (fun x => x.ref == r.ref) g (s.records ++ [r]) } : State) = _
  rw [changed, State.withRecord, State.withRecord, loan]

/-- R66: the record of an accepted WRITE, with its buffers. -/
def gatheringWrite (n : Nat) (f : Frame) (q : BlocksBody) (gap : Nat) : Command :=
  { node := n, tag := f.tag, loan := q.id, kind := .write, first := q.first, count := q.count, segSize := 0
    total := 0, delivered := 0, segFirst := q.first, state := .gathering, held := q.count, done := 0
    nextIndex := 0, dataGap := gap, gapTimer := 0, stop := false, carry := 0
    closing := none, outcome := none, replied := false, gathered := [] }

/-- R66, R79: an accepted WRITE takes its buffers from the pool. -/
theorem acceptWrite_eq (fresh : s.record { node := n, tag := f.tag } = none) (loan : s.loan q.id.slot = some l)
    (covered : q.count ≤ s.poolFree) : acceptWrite n f q s =
      { s.withRecord (gatheringWrite n f q (s.nodeEntry n).dataGap) l with poolFree := s.poolFree - q.count } := by
  let r : Command := { gatheringWrite n f q (s.nodeEntry n).dataGap with held := 0 }
  have made : makeRecord r s = s.withRecord r l := makeRecord_eq loan
  have there : (s.withRecord r l).record r.ref = some r := record_withRecord fresh
  have lent : (s.withRecord r l).modRecord r.ref (fun x => { x with held := x.held + q.count }) =
      s.withRecord { r with held := 0 + q.count } l :=
    modRecord_withRecord (r := r) fresh (g := fun x => { x with held := x.held + q.count }) rfl
  have accepts : acceptWrite n f q s = lend r.ref q.count (makeRecord r s) := rfl
  have taken : min q.count (s.withRecord r l).poolFree = q.count := Nat.min_eq_left covered
  rw [accepts, made, lend, there]
  dsimp only
  rw [taken, lent, Nat.zero_add]
  rfl

/-! ### WRITE (R66, R81) -/

/-- R66: a WRITE that passes its checks is taken with its buffers where the pool gives them, and else is held. -/
theorem writeAct_passes (passes : s.commandHeader n f = none) (form : blocksForm f.body = .ok q)
    (admitted : s.admission n .write q.id q.first q.count = none) : writeAct n f s =
      if s.poolGives q.count then acceptWrite n f q (popHead n s)
      else { s.modLink n (fun x => { x with heldWrite := true }) with
        poolWait := s.poolWait ++ [{ who := .link n, count := q.count }] } := by
  simp only [writeAct, passes, form, admitted]

theorem poolGives_iff {count : Nat} : s.poolGives count = true ↔ s.poolWait = [] ∧ count ≤ s.poolFree := by
  simp [State.poolGives]

end

/-- Settles O21: the pool gives (`acceptWrite_eq`), or the frame stays at the head and its link waits. -/
theorem writeTakenOrHeld : Obligations.WriteTakenOrHeld := by
  intro s n f q l hn h passes form admitted named
  have loan := loan_of_matchLoan named
  have acts := exec_write hn h
  rw [writeAct_passes (s := s.modLink n Link.reserving1) passes form admitted] at acts
  refine ⟨fun none covered => ?_, fun waits => ?_⟩
  · have gives : (s.modLink n Link.reserving1).poolGives q.count = true := poolGives_iff.mpr ⟨none, covered⟩
    have accepts := acceptWrite_eq (s := s.took n 1) (q := q) (record_of_commandHeader passes) loan covered
    rw [acts, if_pos gives, popHead_reserving1 h, accepts]
    exact congrArg _ (finish_of_settled h.settled)
  · have keeps : ¬(s.modLink n Link.reserving1).poolGives q.count = true := fun gives => by
      obtain ⟨none, covered⟩ := poolGives_iff.mp gives
      rcases waits with waits | short
      · exact waits none
      · exact absurd covered (Nat.not_le.mpr short)
    have held : (s.modLink n Link.reserving1).modLink n (fun x => { x with heldWrite := true }) =
        s.setLink n { s.link n with reserved := (s.link n).reserved + 1, heldWrite := true } := by
      rw [State.modLink, State.modLink, State.setLink_setLink, State.link_setLink_self _ _ _ h.lt]
      rfl
    rw [acts, if_neg keeps, held]
    exact congrArg _ (finish_of_settled h.settled)

end Sys2Proof.Machine
end

section
/-! PROOFS. The pool serves its head waiter (O25). -/

namespace Sys2Proof.Machine

/-! ### The list (R82) -/

section
variable {s t : State} {n b count : Nat} {rest : List Waiter}

/-- The list that goes on from the state after the head waiter, which is the whole list that is left. -/
theorem exec_poolServe_next (waiting : s.poolWait.length = rest.length + 1) (left : t.poolWait = rest) (settled : t.Settled)
    (served : servePool (rest.length + 1) s = servePool rest.length t) :
    exec .poolServe s = exec .poolServe t ∧ (rest = [] → exec .poolServe s = .next t) := by
  have goesOn : exec .poolServe s = exec .poolServe t := by
    show execPoolServe s = execPoolServe t
    rw [execPoolServe, execPoolServe, waiting, left, served]
  refine ⟨goesOn, fun none => goesOn.trans ?_⟩
  show execPoolServe t = _
  rw [execPoolServe, left, none]
  exact congrArg _ (finish_of_settled settled)

theorem exec_poolServe_bay (waiting : s.poolWait = { who := .bay b, count := count } :: rest) (covered : count ≤ s.poolFree)
    (left : t.poolWait = rest) (settled : t.Settled) (serves : serveBay b count { s with poolWait := rest } = t) :
    exec .poolServe s = exec .poolServe t ∧ (rest = [] → exec .poolServe s = .next t) :=
  exec_poolServe_next (by rw [waiting]; rfl) left settled ((servePool_bay _ waiting covered).trans (congrArg _ serves))

theorem exec_poolServe_link (waiting : s.poolWait = { who := .link n, count := count } :: rest) (covered : count ≤ s.poolFree)
    (left : t.poolWait = rest) (settled : t.Settled) (serves : recheckWrite n { s with poolWait := rest } = t) :
    exec .poolServe s = exec .poolServe t ∧ (rest = [] → exec .poolServe s = .next t) :=
  exec_poolServe_next (by rw [waiting]; rfl) left settled ((servePool_link _ waiting covered).trans (congrArg _ serves))

/-- R82: a head waiter that the free count does not cover waits on. -/
theorem exec_poolServe_short {w : Waiter} (settled : s.Settled) (waiting : s.poolWait = w :: rest) (short : s.poolFree < w.count) :
    exec .poolServe s = .next s := by
  show execPoolServe s = _
  rw [execPoolServe, servePool_short _ waiting short, finish_of_settled settled]

end

/-! ### A bay (R113, R155) -/

section
variable {s : State} {b c count : Nat} {ref : CommandRef} {r : Command}

theorem lend_eq (h : s.record ref = some r) (covered : count ≤ s.poolFree) : lend ref count s =
    { s.modRecord ref (fun r => { r with held := r.held + count }) with poolFree := s.poolFree - count } := by
  simp only [lend, h, Nat.min_eq_left covered]

theorem lendChannel_eq (lt : c < s.channels.length) (busy : (s.channel c).busy = true) (covered : count ≤ s.poolFree) :
    lendChannel c count s =
      { s.modChannel c (fun x => { x with held := x.held + count }) with poolFree := s.poolFree - count } := by
  simp only [lendChannel, Nat.min_eq_left covered]
  exact if_pos ⟨lt, busy⟩

theorem State.modChannel_modChannel (lt : c < s.channels.length) (f g : Channel → Channel) :
    (s.modChannel c f).modChannel c g = s.modChannel c fun x => g (f x) := by
  rw [State.modChannel, State.modChannel, State.channel_setChannel_self s c _ lt]
  simp [State.setChannel, State.modChannel]

/-- A bay whose operation in service is unit `u`, the first READ BLOCK of which has been issued under profile `p`. -/
def Bay.reading (p : Profile) (u : DiskUnit) (block : Nat) (x : Bay) : Bay :=
  { x with service := some u, chosen := none, op := some (.readBlock block), opNumber := x.opNumber + 1, opTimer := 0
           opLimit := p.operationTimeout }

/-- A bay whose chosen unit starts, and on which a READ BLOCK is issued. -/
theorem issueOp_started (hb : b < s.bays.length) (u : DiskUnit) (block : Nat) :
    issueOp b (.readBlock block) (s.modBay b fun x => { x with service := some u, chosen := none }) =
      s.modBay b (Bay.reading (s.profile b) u block) :=
  State.modBay_modBay hb _ _

theorem lt_of_chosen {u : DiskUnit} (h : (s.bay b).chosen = some u) : b < s.bays.length :=
  State.bay_lt_of_ne Bay.chosen (by rw [h]; exact Option.some_ne_none u)

/-- R113: a READ or a stream's segment becomes the operation in service. -/
theorem startUnit_command (hb : b < s.bays.length) (h : s.record ref = some r) (reads : r.kind ≠ .write) :
    startUnit b (.command ref) s = (s.modRecord ref fun r => { r with state := .inService }).modBay b
      (Bay.reading (s.profile b) (.command ref) (r.segFirst + r.done)) := by
  have there : (s.modBay b fun x => { x with service := some (.command ref), chosen := none }).record ref = some r := h
  have op : r.nextOp = .readBlock (r.segFirst + r.done) := by
    unfold Command.nextOp
    split
    · exact absurd ‹_› reads
    · rfl
  simp only [startUnit, there, op]
  exact issueOp_started (s := s.modRecord ref fun r => { r with state := .inService }) hb _ _

/-- R155: a copy chunk read becomes the operation in service. -/
theorem startUnit_chunkRead (hb : b < s.bays.length) :
    startUnit b (.chunkRead c) s = (s.modChannel c fun x => { x with phase := .reading }).modBay b
      (Bay.reading (s.profile b) (.chunkRead c) (s.channel c).chunkFirst) :=
  issueOp_started (s := s.modChannel c fun x => { x with phase := .reading }) hb _ _

/-- R82, R113: a chosen READ or stream's segment takes its buffers and starts. -/
theorem serveBay_command (chosen : (s.bay b).chosen = some (.command ref)) (h : s.record ref = some r) (reads : r.kind ≠ .write)
    (covered : count ≤ s.poolFree) : serveBay b count s =
      { (s.modRecord ref fun r => { r with held := r.held + count, state := .inService }).modBay b
          (Bay.reading (s.profile b) (.command ref) (r.segFirst + r.done)) with poolFree := s.poolFree - count } := by
  have lent : (s.modRecord ref fun r => { r with held := r.held + count }).record ref =
      some { r with held := r.held + count } := State.record_modRecord_some h fun _ => rfl
  have marked := State.modRecord_modRecord s ref (f := fun r => { r with held := r.held + count }) (fun _ => rfl)
    fun r => { r with state := .inService }
  simp only [serveBay, chosen, lend_eq h covered]
  rw [startUnit_command (s := { s.modRecord ref (fun r => { r with held := r.held + count }) with
    poolFree := s.poolFree - count }) (lt_of_chosen chosen) lent reads]
  exact congrArg (fun u : State => { u.modBay b (Bay.reading (s.profile b) (.command ref) (r.segFirst + r.done)) with
    poolFree := s.poolFree - count }) marked

/-- R82, R155: a chosen copy chunk read takes its buffers and starts. -/
theorem serveBay_chunkRead (chosen : (s.bay b).chosen = some (.chunkRead c)) (lt : c < s.channels.length)
    (busy : (s.channel c).busy = true) (covered : count ≤ s.poolFree) : serveBay b count s =
      { (s.modChannel c fun x => { x with held := x.held + count, phase := .reading }).modBay b
          (Bay.reading (s.profile b) (.chunkRead c) (s.channel c).chunkFirst) with poolFree := s.poolFree - count } := by
  have first : ((s.modChannel c fun x => { x with held := x.held + count }).channel c).chunkFirst = (s.channel c).chunkFirst := by
    rw [State.modChannel, State.channel_setChannel_self s c _ lt]
  have marked := State.modChannel_modChannel lt (fun x => { x with held := x.held + count }) fun x => { x with phase := .reading }
  simp only [serveBay, chosen, lendChannel_eq lt busy covered]
  rw [startUnit_chunkRead (s := { s.modChannel c (fun x => { x with held := x.held + count }) with
    poolFree := s.poolFree - count }) (lt_of_chosen chosen), ← first]
  exact congrArg (fun u : State => { u.modBay b (Bay.reading (s.profile b) (.chunkRead c)
    ((s.modChannel c fun x => { x with held := x.held + count }).channel c).chunkFirst) with
    poolFree := s.poolFree - count }) marked

end

/-! ### A link's held WRITE (R67) -/

section
variable {s : State} {n : Nat} {f : Frame} {q : BlocksBody} {l : Loan}

/-- The link after the WRITE held at its head has left. -/
def Link.released (x : Link) : Link := { x with inbound := x.inbound.tail, heldWrite := false }

/-- A reply, into its reservation, to the WRITE that was held at the head. -/
theorem reply_popHead (presence : (s.link n).presence = true) (reserved : 0 < (s.link n).reserved) (f : Frame) (out : Record) :
    reply n f out (popHead n s) = s.setLink n ((s.link n).released.replying { tag := f.tag, record := out }) := by
  have link := State.link_setLink_self s n (s.link n).released (link_lt_of_presence presence)
  have popped : popHead n s = s.setLink n (s.link n).released := rfl
  rw [reply, popped, placeReserved_eq (by rw [link]; exact presence) (by rw [link]; exact reserved), link, State.setLink_setLink]

/-- R67: the tag, the body's form and admission are checked again. -/
theorem recheckWrite_eq (head : (s.link n).inbound.head? = some f) (form : blocksForm f.body = .ok q) : recheckWrite n s =
    if s.tagPending n f.tag then reject n f rejectDup (popHead n s)
    else match s.admission n .write q.id q.first q.count with
      | some st => reply n f (.done st 0) (popHead n s)
      | none => acceptWrite n f q (popHead n s) := by
  obtain ⟨rest, inbound⟩ := List.head?_eq_some_iff.mp head
  simp only [recheckWrite, inbound, form] <;> rfl

end

/-- Settles O25: the head waiter is served (`serveBay_command`, `serveBay_chunkRead`, `recheckWrite_eq`), and the list goes on. -/
theorem poolServesHead : Obligations.PoolServesHead := by
  refine ⟨fun s b count rest settled waiting covered => ⟨fun ref r chosen record reads => ?_, fun c chosen lt busy => ?_⟩,
    fun s n f q rest settled hn waiting covered head presence reserved form => ?_,
    fun s w rest settled waiting short => exec_poolServe_short settled waiting short⟩
  · exact exec_poolServe_bay waiting covered rfl settled
      (serveBay_command (s := { s with poolWait := rest }) chosen record reads covered)
  · exact exec_poolServe_bay waiting covered rfl settled
      (serveBay_chunkRead (s := { s with poolWait := rest }) chosen lt busy covered)
  · intro taken answered
    have checks := recheckWrite_eq (s := { s with poolWait := rest }) head form
    have answers (out : Record) : reply n f out (popHead n { s with poolWait := rest }) = answered out :=
      reply_popHead (s := { s with poolWait := rest }) presence reserved f out
    have loan {l : Loan} (named : s.matchLoan (some n) q.id = some l) : s.loan q.id.slot = some l := loan_of_matchLoan named
    refine ⟨fun pending => ?_, fun st fresh refused => ?_, fun l fresh admitted named => ?_⟩
    · exact exec_poolServe_link waiting covered rfl settled ((checks.trans (if_pos pending)).trans (answers _))
    · have fails : ({ s with poolWait := rest } : State).admission n .write q.id q.first q.count = some st := refused
      have new : ¬({ s with poolWait := rest } : State).tagPending n f.tag = true := by
        rw [Bool.not_eq_true]; exact fresh
      rw [if_neg new, fails] at checks
      exact exec_poolServe_link waiting covered rfl settled (checks.trans (answers _))
    · have passes : ({ s with poolWait := rest } : State).admission n .write q.id q.first q.count = none := admitted
      have new : ¬({ s with poolWait := rest } : State).tagPending n f.tag = true := by
        rw [Bool.not_eq_true]; exact fresh
      rw [if_neg new, passes] at checks
      exact exec_poolServe_link waiting covered rfl settled (checks.trans (acceptWrite_eq (s := popHead n { s with poolWait := rest })
        (record_of_tagPending fresh) (loan named) covered))

end Sys2Proof.Machine
end

section
/-! PROOFS. A command that becomes QUEUED on its loan's placed bay, and the hot trigger (R99, R100, R167). -/

namespace Sys2Proof.Machine

/-! ### What a ring's queued count rises by (R100) -/

theorem sum_queued_modifyFirst {p : Member → Bool} {f : Member → Member} {ring : List Member} (some_ : ring.any p = true)
    (more : ∀ m, (f m).queued.length = m.queued.length + 1) :
    ((modifyFirst p f ring).map fun m => m.queued.length).sum = (ring.map fun m => m.queued.length).sum + 1 := by
  induction ring with
  | nil => simp at some_
  | cons m ring ih =>
    by_cases first : p m = true
    · simp only [modifyFirst, first, if_true, List.map_cons, List.sum_cons, more]
      omega
    · have later : ring.any p = true := by simpa [first] using some_
      rw [modifyFirst, if_neg first, List.map_cons, List.sum_cons, ih later, List.map_cons, List.sum_cons]
      omega

theorem sum_queued_joinRing (k : Nat) (cls : Cls) (ref : CommandRef) (ring : List Member) :
    ((joinRing k cls ref ring).map fun m => m.queued.length).sum = (ring.map fun m => m.queued.length).sum + 1 := by
  unfold joinRing
  split
  · exact sum_queued_modifyFirst ‹_› fun m => by simp
  · simp

/-! ### What the checks of a copy read (R153) -/

/-- The checks of a copy read the bays' states and capacities, the twin records, the channels, and of the loans what their
commands do not change. -/
theorem copyRefusal_congr {s t : State} (bays : ∀ b, (t.bay b).state = (s.bay b).state ∧ (t.bay b).capacity = (s.bay b).capacity)
    (twins : t.twins = s.twins) (channels : t.channels = s.channels)
    (loans : ∀ p : Loan → Bool, (∀ l n, p { l with commands := n, idle := 0 } = p l) →
      (t.loans.any fun k => k.loan.any p) = s.loans.any fun k => k.loan.any p) (source target first last : Nat) :
    t.copyRefusal source target first last = s.copyRefusal source target first last := by
  have sourceBay : t.sourceBay = s.sourceBay := by
    funext l
    unfold State.sourceBay State.twin
    rw [twins]
  have onTarget := loans (fun l => l.placedBay == target || s.sourceBay l == target) fun _ _ => rfl
  have keeps := loans (fun l => l.kind == .keep && s.sourceBay l == source && overlaps l.range (some ⟨first, last⟩))
    fun _ _ => rfl
  unfold State.copyRefusal State.isTwinSource State.isTwinTarget
  simp only [sourceBay, bays, twins, channels, onTarget, keeps]

section
variable {s : State} {b k c i target : Nat} {cls : Cls} {ref : CommandRef} {r : Command} {l : Loan}

/-- R100: a bay whose ring a command of the loan in slot `k` has joined. -/
def Bay.joining (k : Nat) (cls : Cls) (ref : CommandRef) (x : Bay) : Bay := { x with ring := joinRing k cls ref x.ring }

theorem copyRefusal_joining (a : Nat) : (s.modBay b (Bay.joining k cls ref)).copyRefusal a = s.copyRefusal a := by
  funext target first last
  refine copyRefusal_congr (s := s) (t := s.modBay b (Bay.joining k cls ref)) (fun c => ?_) rfl rfl (fun _ _ => rfl) a target
    first last
  rcases s.bay_modBay_cases b c (Bay.joining k cls ref) with e | e <;> rw [e] <;> exact ⟨rfl, rfl⟩

theorem copyRefusal_withRecord (loan : s.loan r.loan.slot = some l) (a : Nat) :
    (s.withRecord r l).copyRefusal a = s.copyRefusal a := by
  funext target first last
  refine copyRefusal_congr (s := s) (t := s.withRecord r l) (fun _ => ⟨rfl, rfl⟩) rfl rfl (fun p same => ?_) a target first last
  have slot : (some { l with commands := l.commands + 1, idle := 0 }).any p = (s.loans.getD r.loan.slot
      { issue := 0, loan := none }).loan.any p := by
    rw [show (s.loans.getD r.loan.slot { issue := 0, loan := none }).loan = some l from loan]
    exact same l _
  have mapped := map_set_of_eq (fun k : Slot => k.loan.any p)
    (a := { s.slot r.loan.slot with loan := some { l with commands := l.commands + 1, idle := 0 } }) slot
  have asMap (ks : List Slot) : (ks.any fun k => k.loan.any p) = (ks.map fun k => k.loan.any p).any id := by
    rw [List.any_map]; rfl
  rw [asMap, asMap]
  exact congrArg (List.any · id) mapped

/-- Making a record leaves the hot trigger of every bay as it was. -/
theorem hotQuiet_withRecord (loan : s.loan r.loan.slot = some l) : (s.withRecord r l).hotQuiet b ↔ s.hotQuiet b := by
  unfold State.hotQuiet
  simp only [copyRefusal_withRecord loan] <;> rfl

theorem hotFires_withRecord (loan : s.loan r.loan.slot = some l) :
    (s.withRecord r l).hotFires b target c i ↔ s.hotFires b target c i := by
  unfold State.hotFires
  simp only [copyRefusal_withRecord loan] <;> rfl

/-! ### The trigger (R167) -/

theorem queuedCount_joining (hb : b < s.bays.length) : ((s.modBay b (Bay.joining k cls ref)).bay b).queuedCount =
    ((s.bay b).ring.map fun m => m.queued.length).sum + 1 := by
  rw [State.bay_modBay_self hb]
  exact sum_queued_joinRing _ _ _ _

theorem hotTrigger_alone {count : Nat} (alone : (s.profile b).spare = none) : hotTrigger b count s = s := by
  simp [hotTrigger, alone]

theorem hotTrigger_refused {count : Nat} {reason : SupReason} (spare : (s.profile b).spare = some target)
    (refused : s.copyRefusal b target (s.profile b).hotFirst (s.profile b).hotLast = some reason) :
    hotTrigger b count s = s := by
  simp [hotTrigger, spare, refused]

theorem hotTrigger_fires {count : Nat} (on : count ≠ 0) (reached : count = (s.profile b).hotThreshold)
    (unlocked : s.settings.level ≠ .lockdown) (spare : (s.profile b).spare = some target)
    (passes : s.copyRefusal b target (s.profile b).hotFirst (s.profile b).hotLast = none) : hotTrigger b count s =
      occur .copy s.freeTwin .started (startCopy b target (s.profile b).hotFirst (s.profile b).hotLast s) := by
  have fires : (s.profile b).hotThreshold ≠ 0 ∧ count = (s.profile b).hotThreshold ∧ s.settings.level ≠ .lockdown :=
    ⟨reached ▸ on, reached, unlocked⟩
  unfold hotTrigger
  dsimp only
  rw [if_pos fires, spare]
  dsimp only
  rw [passes]

/-- A command that joins the ring of a quiet bay starts no copy. -/
theorem State.hotQuiet.hotTrigger (h : s.hotQuiet b) : hotTrigger b ((s.modBay b (Bay.joining k cls ref)).bay b).queuedCount
    (s.modBay b (Bay.joining k cls ref)) = s.modBay b (Bay.joining k cls ref) := by
  rcases h with count | off | locked | alone | ⟨target, reason, spare, refused⟩
  · refine if_neg fun ⟨on, reached, _⟩ => ?_
    by_cases hb : b < s.bays.length
    · exact count ((queuedCount_joining hb).symm.trans reached)
    · rw [State.modBay, State.setBay, List.set_eq_of_length_le (Nat.le_of_not_lt hb), State.bay,
        List.getD_eq_default _ _ (Nat.le_of_not_lt hb)] at reached
      exact on reached.symm
  · exact if_neg fun ⟨on, _⟩ => on off
  · exact if_neg fun ⟨_, _, unlocked⟩ => unlocked locked
  · exact hotTrigger_alone (s := s.modBay b (Bay.joining k cls ref)) alone
  · exact hotTrigger_refused (s := s.modBay b (Bay.joining k cls ref)) spare ((congrFun (congrFun (congrFun
      (copyRefusal_joining b) _) _) _).trans refused)

/-- R153, R154: with no wait entry, the copy that passes every check is made, and its notice says STARTED. -/
theorem occur_startCopy (waits : s.waits = []) (channel : s.freeChannel = c) (twin : s.freeTwin = i)
    (hc : c < s.channels.length) (hi : i < s.twins.length) :
    occur .copy s.freeTwin .started (startCopy b target (s.profile b).hotFirst (s.profile b).hotLast s) =
      (s.hotCopied b target c i).oweScan := by
  let w : Twin :=
    { source := b, target := target, first := (s.profile b).hotFirst, last := (s.profile b).hotLast, state := .copying
      channel := some c, next := (s.profile b).hotFirst, retiring := false }
  let made : State := (s.setTwin i (some w)).setChannel c { Channel.free with busy := true, twin := i }
  have clear : removeWaitsOn target .twinTarget made = made := if_pos (by simp [made, waits])
  have taken : made.oweScan.channel c = { Channel.free with busy := true, twin := i } :=
    State.channel_setChannel_self (s.setTwin i (some w)) c _ hc
  have record : made.oweScan.twin i = some w := State.twin_setTwin_self s i (some w) hi
  have begun : made.oweScan.modChannel c (fun x =>
      { x with phase := .queued, chunkFirst := w.next, chunkCount := min Config.chunk (w.last - w.next + 1) }) =
      ((s.setTwin i (some w)).setChannel c (Channel.begun i w.first w.last)).oweScan := by
    rw [State.modChannel, taken]
    simp only [State.setChannel, State.oweScan, made, List.set_set] <;> rfl
  have queued := queueChunkRead_eq (s := made.oweScan) (c := c) (w := w) (by rw [taken]; exact record)
  rw [begun] at queued
  have starts : startCopy b target w.first w.last s =
      ringJoin b (channelMember c) ((s.setTwin i (some w)).setChannel c (Channel.begun i w.first w.last)).oweScan := by
    unfold startCopy
    rw [channel, twin]
    exact (congrArg (fun u : State => queueChunkRead c u.oweScan) clear).trans queued
  rw [twin]
  exact congrArg (occur .copy i .started) starts

/-- A command that joins the ring of a bay whose trigger fires starts the copy. -/
theorem State.hotFires.hotTrigger (h : s.hotFires b target c i) (waits : s.waits = []) :
    Machine.hotTrigger b ((s.modBay b (Bay.joining k cls ref)).bay b).queuedCount (s.modBay b (Bay.joining k cls ref)) =
      ((s.modBay b (Bay.joining k cls ref)).hotCopied b target c i).oweScan := by
  obtain ⟨reached, unlocked, spare, passes, busy, hc, free, used, hi, empty⟩ := h
  have count := queuedCount_joining (s := s) (k := k) (cls := cls) (ref := ref) (lt_of_ready (ready_of_copyRefusal passes))
  have same := congrFun (congrFun (congrFun (copyRefusal_joining (s := s) (b := b) (k := k) (cls := cls) (ref := ref) b) target)
    (s.profile b).hotFirst) (s.profile b).hotLast
  rw [hotTrigger_fires (s := s.modBay b (Bay.joining k cls ref)) (by rw [count]; exact Nat.succ_ne_zero _)
    (count.trans reached) unlocked spare (same.trans passes)]
  exact occur_startCopy (s := s.modBay b (Bay.joining k cls ref)) waits (freeChannel_eq (s := s) busy hc free)
    (freeTwin_eq (s := s) used hi empty) hc hi

/-! ### The command (R61, R99) -/

/-- A record that becomes QUEUED joins the ring of its loan's placed bay, whose hot trigger is tested. -/
theorem queueOnPlacedBay_eq {t : State} (loan : s.loan r.loan.slot = some l)
    (marked : (s.modRecord r.ref fun r => { r with state := .queued }) = t) : queueOnPlacedBay r s =
      hotTrigger l.placedBay ((t.modBay l.placedBay (Bay.joining r.loan.slot l.cls r.ref)).bay l.placedBay).queuedCount
        (t.modBay l.placedBay (Bay.joining r.loan.slot l.cls r.ref)) := by
  subst marked
  simp only [queueOnPlacedBay, queueCommand, loan] <;> rfl

end

section
variable {s : State} {n : Nat} {r : Command} {l : Loan}

/-- What a READ or STREAM that passes its checks comes to: its record is made, and queued on its loan's placed bay. -/
theorem queueOnPlacedBay_makeRecord (loan : s.loan r.loan.slot = some l) (fresh : s.record r.ref = none)
    (queued : r.state = .queued) : queueOnPlacedBay r (makeRecord r s) = hotTrigger l.placedBay
      (((s.withRecord r l).modBay l.placedBay (Bay.joining r.loan.slot l.cls r.ref)).bay l.placedBay).queuedCount
      ((s.withRecord r l).modBay l.placedBay (Bay.joining r.loan.slot l.cls r.ref)) := by
  have lent : (s.withRecord r l).loan r.loan.slot = some { l with commands := l.commands + 1, idle := 0 } :=
    State.loan_setLoan_self _ (s.slot_lt_of_loan _ l loan)
  have marked : ((s.withRecord r l).modRecord r.ref fun r => { r with state := .queued }) = s.withRecord r l := by
    refine State.modRecord_same fun x there => ?_
    cases (record_withRecord fresh).symm.trans there
    rw [← queued]
  rw [makeRecord_eq loan, queueOnPlacedBay_eq lent marked]

/-- R65, R66: the handling of a READ or STREAM that passes its checks, taken with an entry reserved. -/
theorem finish_queueOnPlacedBay (settled : s.Settled) (loan : s.loan r.loan.slot = some l) (fresh : s.record r.ref = none)
    (queued : r.state = .queued) :
    let made := (s.withRecord r l).modBay l.placedBay (Bay.joining r.loan.slot l.cls r.ref)
    let handled := finish (queueOnPlacedBay r (makeRecord r (s.took n 1)))
    (s.hotQuiet l.placedBay → handled = made.setLink n (s.link n).kept) ∧
    ∀ target c i, s.hotFires l.placedBay target c i → s.waits = [] →
      handled = (made.hotCopied l.placedBay target c i).setLink n (s.link n).kept := by
  intro made handled
  have queues := queueOnPlacedBay_makeRecord (s := s.took n 1) loan fresh queued
  refine ⟨fun quiet => ?_, fun target c i fires waits => ?_⟩
  · have still : ((s.took n 1).withRecord r l).hotQuiet l.placedBay := (hotQuiet_withRecord (s := s.took n 1) loan).mpr quiet
    exact (congrArg finish (queues.trans still.hotTrigger)).trans (finish_of_settled settled)
  · have still : ((s.took n 1).withRecord r l).hotFires l.placedBay target c i :=
      (hotFires_withRecord (s := s.took n 1) loan).mpr fires
    exact (congrArg finish (queues.trans (still.hotTrigger waits))).trans (finish_oweScan waits settled)

end

/-- Settles O19: the record is made and queued, and the bay's trigger is quiet, or fires (`finish_queueOnPlacedBay`). -/
theorem readAndStreamQueued : Obligations.ReadAndStreamQueued := by
  constructor
  · intro s n f q l hn h passes form admitted named r queued
    have acts : readAct n f (s.took n 1) = queueOnPlacedBay r (makeRecord r (s.took n 1)) := by
      have header : (s.took n 1).commandHeader n f = none := passes
      have admits : (s.took n 1).admission n .read q.id q.first q.count = none := admitted
      simp only [readAct, header, form, admits] <;> rfl
    obtain ⟨quiet, fires⟩ := finish_queueOnPlacedBay (n := n) (r := r) h.settled (loan_of_matchLoan named)
      (record_of_commandHeader passes) rfl
    rw [exec_read hn h, acts]
    exact ⟨fun calm => congrArg _ (quiet calm), fun target c i hot waits => congrArg _ (fires target c i hot waits)⟩
  · intro s n f q l hn h passes form admitted named r queued
    have acts : streamAct n f (s.took n 1) = queueOnPlacedBay r (makeRecord r (s.took n 1)) := by
      have header : (s.took n 1).commandHeader n f = none := passes
      have admits : (s.took n 1).admission n .stream q.id q.first q.total = none := admitted
      simp only [streamAct, header, form, admits] <;> rfl
    obtain ⟨quiet, fires⟩ := finish_queueOnPlacedBay (n := n) (r := r) h.settled (loan_of_matchLoan named)
      (record_of_commandHeader passes) rfl
    rw [exec_stream hn h, acts]
    exact ⟨fun calm => congrArg _ (quiet calm), fun target c i hot waits => congrArg _ (fires target c i hot waits)⟩

end Sys2Proof.Machine
end

section
/-! PROOFS. DATA, and the data gap (O22). -/

namespace Sys2Proof.Machine

section
variable {s : State} {n : Nat} {f : Frame} {r : Command} {l : Loan}

/-! ### A DATA frame for a GATHERING write (R68) -/

/-- The record after the DATA frame `f` has filled its next buffer. -/
def Command.filled (f : Frame) (r : Command) : Command :=
  { r with gathered := r.gathered ++ [f.body.drop 2], nextIndex := r.nextIndex + 1, gapTimer := 0 }

/-- The record as it is once QUEUED (R99). -/
def Command.asQueued (r : Command) : Command := { r with state := .queued }

/-- The last buffer filled makes the write QUEUED: the two changes of its record are one. -/
theorem modRecord_filled_queued (record : s.record r.ref = some r) :
    ((s.modRecord r.ref fun _ => r.filled f).modRecord r.ref Command.asQueued) =
      s.modRecord r.ref fun _ => (r.filled f).asQueued := calc
  _ = (s.modRecord r.ref (Command.filled f)).modRecord r.ref Command.asQueued := by
    rw [State.modRecord_congr (f := fun _ => r.filled f) (g := Command.filled f) record rfl]
  _ = s.modRecord r.ref fun r => (r.filled f).asQueued :=
    State.modRecord_modRecord s r.ref (f := Command.filled f) (fun _ => rfl) Command.asQueued
  _ = _ := State.modRecord_congr record rfl

/-- The expected index, with more to come, fills its buffer. -/
theorem gather_next (index : field f.body 0 2 = r.nextIndex) (more : r.nextIndex + 1 ≠ r.count) :
    gather r f s = s.modRecord r.ref fun _ => r.filled f := by
  rw [gather, if_pos index]
  exact if_neg more

/-- The last index makes the write QUEUED; its loan's placed bay, being quiet, starts no copy. -/
theorem gather_last (index : field f.body 0 2 = r.nextIndex) (last : r.nextIndex + 1 = r.count)
    (record : s.record r.ref = some r) (loan : s.loan r.loan.slot = some l) (quiet : s.hotQuiet l.placedBay) :
    gather r f s = (s.modRecord r.ref fun _ => (r.filled f).asQueued).modBay l.placedBay
      (Bay.joining r.loan.slot l.cls r.ref) := by
  have queues : gather r f s = queueOnPlacedBay (r.filled f) (s.modRecord r.ref fun _ => r.filled f) := by
    rw [gather, if_pos index]
    exact if_pos last
  have still : (s.modRecord r.ref fun _ => (r.filled f).asQueued).hotQuiet l.placedBay := quiet
  have queued := queueOnPlacedBay_eq (s := s.modRecord r.ref fun _ => r.filled f) (r := r.filled f) loan
    (modRecord_filled_queued record)
  exact queues.trans (queued.trans still.hotTrigger)

/-- R70: another index ends the write, its buffers returned. -/
theorem State.CanReply.gather_wrong (h : s.CanReply r l) (active : l.state = .active)
    (index : field f.body 0 2 ≠ r.nextIndex) : gather r f s = (s.replied r (.done .dataOrder 0)).withoutRecord r l := by
  rw [gather, if_neg index, h.endDone_active active]

/-! ### The commands -/

theorem exec_data (hn : isNode n = true) (h : s.CanTake n kindData 0 f) :
    exec (.data n) s = .next (finish (dataAct n f (s.setLink n (s.link n).taken))) := h.onNode (needs := noEntry) hn _

/-- A DATA frame with a GATHERING write, of the right length, is gathered. -/
theorem dataAct_gathers (record : s.record { node := n, tag := f.tag } = some r) (gathering : r.state = .gathering)
    (length : f.body.length = dataBodyBytes) : dataAct n f s = gather r f s := by
  rw [dataAct, record]
  exact if_pos ⟨gathering, length⟩

/-- A DATA frame without a GATHERING write, or of another length, is discarded. -/
theorem dataAct_discards
    (other : ∀ r, s.record { node := n, tag := f.tag } = some r → r.state ≠ .gathering ∨ f.body.length ≠ dataBodyBytes) :
    dataAct n f s = s := by
  unfold dataAct
  split
  · rfl
  · exact if_neg (not_and_or.mpr (other _ ‹_›))

/-- R69: the write whose gap timer has reached its data gap ends. -/
theorem exec_dataGapExpiry {tag : Nat} (hn : isNode n = true) (ht : isTag tag = true)
    (record : s.record { node := n, tag := tag } = some r) (gathering : r.state = .gathering)
    (late : r.dataGap ≤ r.gapTimer) : exec (.dataGapExpiry n tag) s = .next (finish (endDone r.ref .dataLate 0 s)) := by
  have expired : r.gapExpired = true := by simp [Command.gapExpired, gathering, late]
  show execDataGapExpiry n tag s = _
  rw [execDataGapExpiry, onNode_eq hn]
  simp only [ht, record, expired, Bool.not_true, Bool.false_eq_true, if_false, if_true]

end

/-- Settles O22: the frame's index against the write's next (`gather_next`, `gather_last`, `gather_wrong`), and the gap's end. -/
theorem dataGathers : Obligations.DataGathers := by
  refine ⟨fun s n f hn h => ⟨fun r l record gathering length loan active open_ => ?_, fun other => ?_⟩,
    fun s n tag r l settled hn ht record gathering late loan active open_ presence reserved => ?_⟩
  · have name : r.ref = { node := n, tag := f.tag } := State.ref_of_record record
    obtain rfl : r.node = n := congrArg CommandRef.node name
    have tagged : r.tag = f.tag := congrArg CommandRef.tag name
    have acts : exec (.data r.node) s = .next (finish (gather r f (s.setLink r.node (s.link r.node).taken))) := by
      rw [exec_data hn h, dataAct_gathers (s := s.setLink r.node (s.link r.node).taken) record gathering length]
    rw [← name] at record ⊢
    refine ⟨fun index more => ?_, fun index last quiet => ?_, fun index reserved => ?_⟩
    · rw [acts, gather_next index more]
      exact congrArg _ (finish_of_settled h.settled)
    · rw [acts, gather_last (s := s.setLink r.node (s.link r.node).taken) index last record loan quiet]
      exact congrArg _ (finish_of_settled h.settled)
    · have can := canReply_setLink (x := (s.link r.node).taken) record loan open_ h.lt h.presence reserved
      rw [acts, can.gather_wrong active index, replied_setLink h.lt, tagged]
      exact congrArg _ (finish_of_settled h.settled)
  · rw [exec_data hn h, dataAct_discards (s := s.setLink n (s.link n).taken) other]
    exact congrArg _ (finish_of_settled h.settled)
  · have name : r.ref = { node := n, tag := tag } := State.ref_of_record record
    obtain rfl : r.node = n := congrArg CommandRef.node name
    obtain rfl : r.tag = tag := congrArg CommandRef.tag name
    have can : s.CanReply r l := ⟨record, loan, by simp [open_], presence, reserved⟩
    rw [exec_dataGapExpiry hn ht record gathering late, can.endDone_active active]
    exact congrArg _ (finish_of_settled settled)

end Sys2Proof.Machine
end

section
/-! PROOFS. A segment boundary of a stream (O24). -/

namespace Sys2Proof.Machine

section
variable {s : State} {n tag count : Nat} {r : Command} {l : Loan} {st : Status}

/-! ### The boundary (R87, R94) -/

/-- A stream that delivers, with no DATA waiting and its STREAM END to come, is at a boundary unless a held move of its loan is
due. -/
theorem atBoundary_eq (kind : r.kind = .stream) (delivering : r.state = .delivering) (unreplied : r.replied = false)
    (placed : ∀ w ∈ (s.link r.node).waitingData, w.tag ≠ r.tag) (loan : s.loan r.loan.slot = some l) :
    s.atBoundary r = !(l.move.isSome && !s.workOnBay r.loan.slot) := by
  have none : s.dataWaits r.ref = false := List.any_eq_false.mpr fun w mem => by simpa [Command.ref] using placed w mem
  simp [State.atBoundary, State.moveDue, kind, delivering, unreplied, none, loan]

theorem exec_segmentBoundary (hn : isNode n = true) (ht : isTag tag = true)
    (record : s.record { node := n, tag := tag } = some r) :
    exec (.segmentBoundary n tag) s = .next (if s.atBoundary r then finish (boundary r s) else s) := by
  show execSegmentBoundary n tag s = _
  rw [execSegmentBoundary, onNode_eq hn]
  simp only [ht, record, Bool.not_true, Bool.false_eq_true, if_false]

/-! ### The next segment (R87) -/

/-- The record with its next segment of `count` blocks, the carry among them. -/
def Command.segment (count : Nat) (r : Command) : Command :=
  { r with segFirst := r.first + r.delivered, count := count, done := 0, carry := 0 }

/-- With no media error, closing absent, and blocks left or carried, the stream goes on, the carry first. -/
theorem boundary_continues (sound : r.outcome = none) (running : r.closing = none) (left : r.carry = 0 → r.delivered ≠ r.total) :
    boundary r s = nextSegment r (if 0 < r.carry then r.carry else min r.segSize (r.total - r.delivered)) s := by
  unfold boundary
  rw [if_neg (by simp [sound]), running]
  dsimp only
  by_cases carried : 0 < r.carry
  · rw [if_pos carried, if_pos carried]
  · rw [if_neg carried, if_neg carried, if_neg (left (Nat.eq_zero_of_not_pos carried))]

/-- The next segment becomes QUEUED; the loan's placed bay, being quiet, starts no copy. -/
theorem nextSegment_eq (loan : s.loan r.loan.slot = some l) (quiet : s.hotQuiet l.placedBay) :
    nextSegment r count s = (s.modRecord r.ref fun r => (r.segment count).asQueued).modBay l.placedBay
      (Bay.joining r.loan.slot l.cls r.ref) := by
  have marked := State.modRecord_modRecord s r.ref (f := Command.segment count) (fun _ => rfl) Command.asQueued
  have queued := queueOnPlacedBay_eq (s := s.modRecord r.ref (Command.segment count)) loan marked
  have still : (s.modRecord r.ref fun r => (r.segment count).asQueued).hotQuiet l.placedBay := quiet
  exact queued.trans still.hotTrigger

/-! ### The end of the stream (R87, R90) -/

/-- The boundary ends the stream with `st`: for a media error, for what its closing says, or with all its blocks delivered. -/
def Command.endsAtBoundary (r : Command) (st : Status) : Prop :=
  (r.outcome = some .mediaError ∧ st = .mediaError) ∨
    (r.outcome = none ∧ (r.closing = some st ∨ (r.closing = none ∧ r.carry = 0 ∧ r.delivered = r.total ∧ st = .ok)))

theorem boundary_ends (ends : r.endsAtBoundary st) : boundary r s = endStream r.ref st s := by
  rcases ends with ⟨failed, rfl⟩ | ⟨sound, closed | ⟨running, carry, delivered, rfl⟩⟩
  · exact if_pos failed
  · simp only [boundary, sound, closed, reduceCtorEq, if_false]
  · simp only [boundary, sound, running, carry, delivered, reduceCtorEq, Nat.lt_irrefl, if_false, if_true]

/-- A delivering stream that ends with DATA still to be sent is answered, and loses its carry. -/
theorem State.CanReply.endStream_delivering (h : s.CanReply r l) (delivering : r.state = .delivering) (holds : 0 < r.held) :
    Machine.endStream r.ref st s =
      (s.replied r (.streamEnd st r.delivered)).modRecord r.ref fun r => { r with replied := true, carry := 0 } := by
  rw [h.endStream_keeps st holds]
  refine State.modRecord_congr (s := s.replied r (.streamEnd st r.delivered)) h.record ?_
  rw [Command.streamEnded, ← delivering]

end

/-- Settles O24: the held move that is due keeps the stream from its boundary (`atBoundary_eq`), where it goes on
(`nextSegment_eq`), or ends (`endStream_delivering`). -/
theorem segmentBoundaryDecides : Obligations.SegmentBoundaryDecides := by
  intro s n tag r l settled hn ht record kind delivering unreplied placed loan notLost
  have name : r.ref = { node := n, tag := tag } := State.ref_of_record record
  obtain rfl : r.node = n := congrArg CommandRef.node name
  obtain rfl : r.tag = tag := congrArg CommandRef.tag name
  have runs := exec_segmentBoundary hn ht record
  have due := atBoundary_eq kind delivering unreplied placed loan
  have decides (free : l.move = none ∨ s.workOnBay r.loan.slot = true) :
      exec (.segmentBoundary r.node r.tag) s = .next (finish (boundary r s)) := by
    rw [runs, due]
    rcases free with still | busy
    · simp [still]
    · simp [busy]
  refine ⟨fun moves idle => ?_, fun count free sound running left blocks quiet => ?_,
    fun st free ends holds presence reserved => ?_⟩
  · rw [runs, if_neg]
    simpa [due, idle, Option.isSome_iff_ne_none] using moves
  · rw [decides free, boundary_continues sound running left, ← blocks, nextSegment_eq loan quiet]
    exact congrArg _ (finish_of_settled settled)
  · have can : s.CanReply r l := ⟨record, loan, notLost, presence, reserved⟩
    rw [decides free, boundary_ends ends, can.endStream_delivering delivering holds]
    exact congrArg _ (finish_of_settled settled)

end Sys2Proof.Machine
end

section
/-! PROOFS. The cost of a member's head command (O27), and what the ring step dispatches and leaves (O28). -/

namespace Sys2Proof.Machine

/-! ### The cost (R108) -/

theorem surcharge_le (p : Profile) (distance : Nat) : surcharge p distance ≤ p.seekCap := by
  unfold surcharge
  split
  · exact Nat.zero_le _
  · exact Nat.min_le_left _ _

/-- One of the two differences is 0, so that their sum is the distance. -/
theorem distance_eq (head first : Nat) :
    (first - head) + (head - first) = if head ≤ first then first - head else head - first := by
  split <;> omega

section
variable {s : State} {b k c : Nat} {m : Member} {ref : CommandRef} {refs : List CommandRef} {r : Command}

theorem memberCost_loan (who : m.who = .loan k) (queued : m.queued = ref :: refs) (record : s.record ref = some r) :
    s.memberCost b m = costOf (s.profile b) (s.bay b).head (r.kind == .write)
      (if r.kind = .write then r.first else r.segFirst) r.count := by
  simp [State.memberCost, who, queued, record]

theorem memberCost_channel (who : m.who = .channel c) :
    s.memberCost b m = costOf (s.profile b) (s.bay b).head false (s.channel c).chunkFirst (s.channel c).chunkCount := by
  simp [State.memberCost, who]

end

/-- Settles O27: the cost is its base and a surcharge of at most the seek cap (`surcharge_le`). -/
theorem costBaseAndSurcharge : Obligations.CostBaseAndSurcharge := by
  intro s b m cap head charge
  have charged (first : Nat) : charge first = surcharge (s.profile b) ((first - head) + (head - first)) := by
    rw [distance_eq]; rfl
  have most (first : Nat) : charge first ≤ 64 := by
    rw [charged]; exact (surcharge_le _ _).trans cap
  refine ⟨fun k ref refs r who queued record low high => ?_, fun c who low high => ?_⟩
  · have cost : s.memberCost b m =
        if r.kind = .write then 2 * r.count + charge r.first else r.count + charge r.segFirst := by
      rw [memberCost_loan who queued record, charged, charged, costOf]
      by_cases write : r.kind = .write
      · simp only [write, beq_self_eq_true, if_true]; rfl
      · simp only [write, beq_iff_eq, if_false]; rfl
    refine ⟨cost, ?_⟩
    have := most r.first
    have := most r.segFirst
    rw [cost]
    split <;> omega
  · have cost : s.memberCost b m = (s.channel c).chunkCount + charge (s.channel c).chunkFirst := by
      rw [memberCost_channel who, charged]; rfl
    have := most (s.channel c).chunkFirst
    exact ⟨cost, by omega, by omega⟩

/-! ### A visit of the ring step (R107, R109, R110) -/

/-- A member's credit at a visit: one that is not continued adds the weighted quantum. -/
def Member.gained (quantum : Nat) (m : Member) : Int :=
  if m.visited then m.credit else m.credit + (m.cls.weight * quantum : Nat)

/-- A member that the pointer has passed over. -/
def Member.passed (quantum : Nat) (m : Member) : Member := { m with credit := m.gained quantum, visited := false }

/-- What stays of a member whose head command, of cost `c`, is dispatched: itself, unless that was its last. -/
def Member.charged (quantum c : Nat) (visited : Bool) (m : Member) : List Member :=
  m.afterChoice.toList.map fun n => { n with credit := m.gained quantum - c, visited := visited }

section
variable {quantum c fuel : Nat} {cost : Member → Nat} {m x : Member} {rest ring : List Member} {visited : Bool}

/-- A visit dispatches, at the pointer or as RUSH work on credit, or passes over the member. -/
theorem ringStep_cons : ringStep quantum cost (fuel + 1) (m :: rest) =
    if cost m ≤ m.gained quantum then some (m, m.charged quantum (cost m) true ++ rest)
    else if m.cls = .rush ∧ 0 ≤ m.gained quantum then some (m, rest ++ m.charged quantum (cost m) false)
    else ringStep quantum cost fuel (rest ++ [m.passed quantum]) := by
  cases h : m.afterChoice <;> simp [ringStep, Member.charged, Member.gained, Member.passed, h]

/-- R107 to R110: what is kept from visit to visit, and holds where a visit dispatches, holds of the ring step. -/
theorem ringStep_induct {p : List Member → Prop} {q : Member → List Member → Prop}
    (pays : ∀ m rest, p (m :: rest) → cost m ≤ m.gained quantum → q m (m.charged quantum (cost m) true ++ rest))
    (owes : ∀ m rest, p (m :: rest) → m.gained quantum < cost m → m.cls = .rush → 0 ≤ m.gained quantum →
      q m (rest ++ m.charged quantum (cost m) false))
    (passes : ∀ m rest, p (m :: rest) → m.gained quantum < cost m → p (rest ++ [m.passed quantum]))
    (start : p ring) (step : ringStep quantum cost fuel ring = some (m, rest)) : q m rest := by
  induction fuel generalizing ring with
  | zero => cases step
  | succ fuel ih =>
    cases ring with
    | nil => cases step
    | cons n ring =>
      rw [ringStep_cons] at step
      split_ifs at step with paid rush
      · cases step; exact pays _ _ start paid
      · cases step; exact owes _ _ start (not_le.mp paid) rush.1 rush.2
      · exact ih (passes _ _ start (not_le.mp paid)) step

/-- R111: a choice that is made within a bound of visits is made under every larger one. -/
theorem ringStep_mono {choice : Member × List Member} {more : Nat} (le : fuel ≤ more)
    (step : ringStep quantum cost fuel ring = some choice) : ringStep quantum cost more ring = some choice := by
  induction fuel generalizing ring more with
  | zero => cases step
  | succ fuel ih =>
    obtain ⟨more, rfl⟩ := Nat.exists_eq_add_of_le' (Nat.one_le_of_lt le)
    cases ring with
    | nil => cases step
    | cons n ring =>
      rw [ringStep_cons] at step ⊢
      split_ifs at step ⊢
      · exact step
      · exact step
      · exact ih (Nat.le_of_succ_le_succ le) step

/-! ### Whose commands the ring step chooses, and who stays (R101, R111) -/

theorem afterChoice_who {n : Member} (h : m.afterChoice = some n) : n.who = m.who ∧ n.cls = m.cls := by
  unfold Member.afterChoice at h
  split at h <;> cases h
  exact ⟨rfl, rfl⟩

theorem mem_charged (mem : x ∈ m.charged quantum c visited) :
    x.who = m.who ∧ x.cls = m.cls ∧ x.credit = m.gained quantum - c ∧ x.visited = visited := by
  simp only [Member.charged, List.mem_map, Option.mem_toList] at mem
  obtain ⟨n, stays, rfl⟩ := mem
  obtain ⟨who, cls⟩ := afterChoice_who stays
  exact ⟨who, cls, rfl, rfl⟩

/-- Each member of a ring is one of `members`, but for its credit and its flag. -/
def ringFrom (members ring : List Member) : Prop :=
  ∀ x ∈ ring, ∃ y ∈ members, y.who = x.who ∧ y.queued = x.queued ∧ y.cls = x.cls

/-- `m` is one of `members`, but for its credit and its flag, and `rest` adds no member to them. -/
def ringOffers (members : List Member) (m : Member) (rest : List Member) : Prop :=
  (∃ n ∈ members, n.who = m.who ∧ n.queued = m.queued ∧ n.cls = m.cls) ∧
    ∀ x ∈ rest, ∃ y ∈ members, y.who = x.who ∧ y.cls = x.cls

/-- R111: the ring step chooses a head command of a member, and adds no member. -/
theorem ringStep_offers (step : ringStep quantum cost fuel ring = some (m, rest)) : ringOffers ring m rest := by
  have stays {n x : Member} {others : List Member} {v : Bool} (h : ringFrom ring (n :: others))
      (mem : x ∈ n.charged quantum (cost n) v ∨ x ∈ others) : ∃ y ∈ ring, y.who = x.who ∧ y.cls = x.cls := by
    rcases mem with own | other
    · obtain ⟨who, cls, _⟩ := mem_charged own
      obtain ⟨y, hy, hw, _, hc⟩ := h n List.mem_cons_self
      exact ⟨y, hy, hw.trans who.symm, hc.trans cls.symm⟩
    · obtain ⟨y, hy, hw, _, hc⟩ := h x (List.mem_cons_of_mem _ other)
      exact ⟨y, hy, hw, hc⟩
  refine ringStep_induct (p := ringFrom ring) (q := ringOffers ring)
    (fun n others h _ => ⟨h n List.mem_cons_self, fun x mem => stays h (List.mem_append.mp mem)⟩)
    (fun n others h _ _ _ => ⟨h n List.mem_cons_self, fun x mem => stays h (List.mem_append.mp mem).symm⟩)
    (fun n others h _ x mem => ?_) (fun x mem => ⟨x, mem, rfl, rfl, rfl⟩) step
  rcases List.mem_append.mp mem with other | own
  · exact h x (List.mem_cons_of_mem _ other)
  · rw [List.mem_singleton.mp own]
    exact h n List.mem_cons_self

/-! ### Credits (R112) -/

/-- The credit at a visit is at least the member's, and with a quantum of at most 64 at most 383. -/
theorem Member.inBounds.gained (h : m.inBounds) (most : quantum ≤ 64) :
    m.credit ≤ m.gained quantum ∧ m.gained quantum ≤ 383 := by
  obtain ⟨_, high, _, fresh⟩ := h
  have weight : m.cls.weight ≤ 4 := by cases m.cls <;> decide
  have add : m.cls.weight * quantum ≤ 256 := Nat.mul_le_mul weight most
  unfold Member.gained
  cases visited : m.visited
  · have := fresh visited
    simp only [Bool.false_eq_true, if_false]
    omega
  · simp [high]

/-- R112: the ring step keeps every credit in its bounds. -/
theorem ringStep_inBounds (most : quantum ≤ 64) (costs : ∀ m, cost m ≤ 128) (start : ∀ m ∈ ring, m.inBounds)
    (step : ringStep quantum cost fuel ring = some (m, rest)) : ∀ x ∈ rest, x.inBounds := by
  refine ringStep_induct (p := fun ring => ∀ m ∈ ring, m.inBounds) (q := fun _ rest => ∀ x ∈ rest, x.inBounds)
    (fun n others h paid x mem => ?_) (fun n others h short rush covered x mem => ?_) (fun n others h short x mem => ?_)
    start step <;> obtain ⟨least, highest⟩ := (h n List.mem_cons_self).gained most <;> have := costs n
  · rcases List.mem_append.mp mem with own | other
    · obtain ⟨_, _, credit, visited⟩ := mem_charged own
      exact ⟨by omega, by omega, fun _ => by omega, fun fresh => by simp [visited] at fresh⟩
    · exact h x (List.mem_cons_of_mem _ other)
  · rcases List.mem_append.mp mem with other | own
    · exact h x (List.mem_cons_of_mem _ other)
    · obtain ⟨_, cls, credit, _⟩ := mem_charged own
      exact ⟨by omega, by omega, fun slow => absurd (cls.trans rush) slow, fun _ => by omega⟩
  · rcases List.mem_append.mp mem with other | own
    · exact h x (List.mem_cons_of_mem _ other)
    · obtain ⟨low, _, slow, _⟩ := h n List.mem_cons_self
      rw [List.mem_singleton.mp own]
      exact ⟨low.trans least, highest, fun cls => (slow cls).trans least, fun _ => show n.gained quantum ≤ 127 by omega⟩

end

/-- Settles O28: a visit that dispatches is reached (`ringStep_isSome`), and what every visit keeps (`ringStep_induct`) holds of the
ring it leaves. -/
theorem ringStepDispatches : Obligations.RingStepDispatches := by
  intro quantum cost ring pos same nonempty
  obtain ⟨⟨m, rest⟩, step⟩ := Option.isSome_iff_exists.mp (ringStep_isSome pos same nonempty)
  obtain ⟨chosen, stays⟩ := ringStep_offers step
  exact ⟨m, rest, step, chosen, stays, fun most costs start => ringStep_inBounds most costs start step⟩

end Sys2Proof.Machine
end

section
/-! PROOFS. A dispatch point (O29). -/

namespace Sys2Proof.Machine

/-! ### A unit starts (R113) -/

/-- A bay whose operation in service is unit `u`, the first disk operation of which has been issued under profile `p`. -/
def Bay.serving (p : Profile) (u : DiskUnit) (op : DiskOp) (x : Bay) : Bay :=
  { x with service := some u, op := some op, opNumber := x.opNumber + 1, opTimer := 0, opLimit := p.operationTimeout }

/-- Only what a change of a bay makes of the one it finds matters. -/
theorem State.modBay_congr {s : State} {b : Nat} {f g : Bay → Bay} (h : f (s.bay b) = g (s.bay b)) :
    s.modBay b f = s.modBay b g := congrArg (s.setBay b) h

section
variable {s : State} {b c : Nat} {ref : CommandRef} {r : Command} {u : DiskUnit} {g : Bay → Bay}

/-- A block operation is issued for the unit that becomes the operation in service of a bay that waits for no buffers. -/
theorem issueOp_serving (hb : b < s.bays.length) (free : (g (s.bay b)).chosen = none) {op : DiskOp}
    (limit : ∀ q, opLimitOf (s.profile b) q op = (s.profile b).operationTimeout) :
    issueOp b op ((s.modBay b g).modBay b fun x => { x with service := some u, chosen := none }) =
      s.modBay b fun x => (g x).serving (s.profile b) u op := by
  have twice := State.modBay_modBay (s := s) hb g fun x => { x with service := some u, chosen := none }
  rw [twice]
  refine (State.modBay_modBay hb _ _).trans (State.modBay_congr ?_)
  have same : opLimitOf ((s.modBay b fun x => { g x with service := some u, chosen := none }).profile b)
      (g (s.bay b)).powerOnSpin op = (s.profile b).operationTimeout := limit _
  simp only [same, Bay.serving, free]

theorem opLimitOf_nextOp (p : Profile) (r : Command) (q : Bool) : opLimitOf p q r.nextOp = p.operationTimeout := by
  unfold Command.nextOp
  split <;> rfl

theorem Command.nextOp_write (write : r.kind = .write) :
    r.nextOp = .writeBlock (r.first + r.done) (r.gathered.getD r.done []) := by
  simp only [Command.nextOp, write]

theorem Command.nextOp_reads (reads : r.kind ≠ .write) : r.nextOp = .readBlock (r.segFirst + r.done) := by
  unfold Command.nextOp
  split
  · exact absurd ‹_› reads
  · rfl

theorem startUnit_command_serving (hb : b < s.bays.length) (free : (g (s.bay b)).chosen = none) (h : s.record ref = some r) :
    startUnit b (.command ref) (s.modBay b g) = (s.modRecord ref fun r => { r with state := .inService }).modBay b fun x =>
      (g x).serving (s.profile b) (.command ref) r.nextOp := by
  have there : ((s.modBay b g).modBay b fun x => { x with service := some (.command ref), chosen := none }).record ref = some r :=
    h
  simp only [startUnit, there]
  exact issueOp_serving (s := s.modRecord ref fun r => { r with state := .inService }) hb free (opLimitOf_nextOp _ r)

theorem startUnit_chunkRead_serving (hb : b < s.bays.length) (free : (g (s.bay b)).chosen = none) :
    startUnit b (.chunkRead c) (s.modBay b g) = (s.modChannel c fun x => { x with phase := .reading }).modBay b fun x =>
      (g x).serving (s.profile b) (.chunkRead c) (.readBlock (s.channel c).chunkFirst) :=
  issueOp_serving (s := s.modChannel c fun x => { x with phase := .reading }) hb free fun _ => rfl

theorem startUnit_chunkWrite_serving (hb : b < s.bays.length) (free : (g (s.bay b)).chosen = none) :
    startUnit b (.chunkWrite c) (s.modBay b g) = (s.modChannel c fun x => { x with phase := .writing }).modBay b fun x =>
      (g x).serving (s.profile b) (.chunkWrite c)
        (.writeBlock (s.channel c).chunkFirst ((s.channel c).filled.getD 0 [])) :=
  issueOp_serving (s := s.modChannel c fun x => { x with phase := .writing }) hb free fun _ => rfl

/-! ### The ring's unit (R71, R75, R113, R154) -/

theorem poolGives_eq_false {count : Nat} (h : s.poolWait ≠ [] ∨ s.poolFree < count) : s.poolGives count = false := by
  rw [← Bool.not_eq_true, poolGives_iff]
  rintro ⟨empty, covered⟩
  exact h.elim (· empty) covered.not_gt

/-- The chosen unit waits for its buffers at the end of the pool wait list. -/
theorem waitForPool_eq (hb : b < s.bays.length) (count : Nat) :
    ({ (s.modBay b g).modBay b (fun x => { x with chosen := some u }) with
        poolWait := (s.modBay b g).poolWait ++ [{ who := .bay b, count := count }] } : State) =
      { s.modBay b (fun x => { g x with chosen := some u }) with
        poolWait := s.poolWait ++ [{ who := .bay b, count := count }] } := by
  rw [State.modBay_modBay hb]
  rfl

/-- R75: a WRITE, which holds its buffers, starts. -/
theorem dispatchUnit_write (hb : b < s.bays.length) (free : (g (s.bay b)).chosen = none) (h : s.record ref = some r)
    (write : r.kind = .write) :
    dispatchUnit b (.command ref) (s.modBay b g) =
      (s.modRecord ref fun r => { r with state := .inService }).modBay b fun x =>
        (g x).serving (s.profile b) (.command ref) (.writeBlock (r.first + r.done) (r.gathered.getD r.done [])) := by
  have there : (s.modBay b g).record ref = some r := h
  simp only [dispatchUnit, there, write, if_true]
  rw [startUnit_command_serving hb free h, Command.nextOp_write write]

/-- The pool has lent `n` buffers to command `ref`. -/
def State.lent (s : State) (ref : CommandRef) (n : Nat) : State :=
  { s.modRecord ref (fun r => { r with held := r.held + n }) with poolFree := s.poolFree - n }

theorem lend_modBay {count : Nat} (h : s.record ref = some r) (covered : count ≤ s.poolFree) :
    lend ref count (s.modBay b g) = (s.lent ref count).modBay b g := lend_eq (s := s.modBay b g) h covered

theorem lent_inService (ref : CommandRef) (n : Nat) : ((s.lent ref n).modRecord ref fun r => { r with state := .inService }) =
    { s.modRecord ref (fun r => { r with held := r.held + n, state := .inService }) with poolFree := s.poolFree - n } :=
  congrArg (fun v : State => { v with poolFree := s.poolFree - n })
    (State.modRecord_modRecord s ref (f := fun r => { r with held := r.held + n }) (fun _ => rfl)
      fun r => { r with state := .inService })

/-- R71, R81: a READ or a stream's segment that the pool gives its buffers starts. -/
theorem dispatchUnit_read (hb : b < s.bays.length) (free : (g (s.bay b)).chosen = none) (h : s.record ref = some r)
    (reads : r.kind ≠ .write) (empty : s.poolWait = []) (covered : r.count ≤ s.poolFree) :
    dispatchUnit b (.command ref) (s.modBay b g) =
      { (s.modRecord ref fun r => { r with held := r.held + r.count, state := .inService }).modBay b (fun x =>
          (g x).serving (s.profile b) (.command ref) (.readBlock (r.segFirst + r.done))) with
        poolFree := s.poolFree - r.count } := by
  have there : (s.modBay b g).record ref = some r := h
  have gives : (s.modBay b g).poolGives r.count = true := poolGives_iff.mpr ⟨empty, covered⟩
  have op := Command.nextOp_reads (r := { r with held := r.held + r.count }) reads
  have record : (s.lent ref r.count).record ref = some { r with held := r.held + r.count } :=
    State.record_modRecord_some h fun _ => rfl
  have counted : (s.modRecord ref fun q => { q with held := q.held + r.count, state := .inService }) =
      s.modRecord ref fun q => { q with held := q.held + q.count, state := .inService } := State.modRecord_congr h rfl
  simp only [dispatchUnit, there, reads, gives, if_true, if_false]
  rw [lend_modBay h covered, startUnit_command_serving (s := s.lent ref r.count) hb free record, op, lent_inService, counted]
  rfl

/-- R113: a READ or a stream's segment that the pool does not give its buffers waits for them. -/
theorem dispatchUnit_readWaits (hb : b < s.bays.length) (h : s.record ref = some r) (reads : r.kind ≠ .write)
    (waits : s.poolWait ≠ [] ∨ s.poolFree < r.count) :
    dispatchUnit b (.command ref) (s.modBay b g) =
      { (s.modRecord ref fun r => { r with state := .poolWait }).modBay b (fun x =>
          { g x with chosen := some (.command ref) }) with
        poolWait := s.poolWait ++ [{ who := .bay b, count := r.count }] } := by
  have there : (s.modBay b g).record ref = some r := h
  have gives : (s.modBay b g).poolGives r.count = false := poolGives_eq_false (s := s) waits
  simp only [dispatchUnit, there, reads, gives, Bool.false_eq_true, if_false]
  exact waitForPool_eq (s := s.modRecord ref fun r => { r with state := .poolWait }) hb r.count

/-- The pool has lent `n` buffers to channel `c`. -/
def State.lentChannel (s : State) (c n : Nat) : State :=
  { s.modChannel c (fun x => { x with held := x.held + n }) with poolFree := s.poolFree - n }

theorem lentChannel_reading (lt : c < s.channels.length) (n : Nat) :
    ((s.lentChannel c n).modChannel c fun x => { x with phase := .reading }) =
      { s.modChannel c (fun x => { x with held := x.held + n, phase := .reading }) with poolFree := s.poolFree - n } :=
  congrArg (fun v : State => { v with poolFree := s.poolFree - n })
    (State.modChannel_modChannel lt (fun x => { x with held := x.held + n }) fun x => { x with phase := .reading })

theorem lentChannel_chunkFirst (lt : c < s.channels.length) (n : Nat) :
    ((s.lentChannel c n).channel c).chunkFirst = (s.channel c).chunkFirst := by
  rw [show (s.lentChannel c n).channel c = { s.channel c with held := (s.channel c).held + n } from
    State.channel_setChannel_self s c _ lt]

/-- R154, R81: a copy chunk read that the pool gives its buffers starts. -/
theorem dispatchUnit_chunkRead (hb : b < s.bays.length) (free : (g (s.bay b)).chosen = none) (lt : c < s.channels.length)
    (busy : (s.channel c).busy = true) (empty : s.poolWait = []) (covered : (s.channel c).chunkCount ≤ s.poolFree) :
    dispatchUnit b (.chunkRead c) (s.modBay b g) =
      { (s.modChannel c fun x => { x with held := x.held + (s.channel c).chunkCount, phase := .reading }).modBay b (fun x =>
          (g x).serving (s.profile b) (.chunkRead c) (.readBlock (s.channel c).chunkFirst)) with
        poolFree := s.poolFree - (s.channel c).chunkCount } := by
  have gives : (s.modBay b g).poolGives ((s.modBay b g).channel c).chunkCount = true := poolGives_iff.mpr ⟨empty, covered⟩
  have lends : lendChannel c ((s.modBay b g).channel c).chunkCount (s.modBay b g) =
      (s.lentChannel c (s.channel c).chunkCount).modBay b g := lendChannel_eq (s := s.modBay b g) lt busy covered
  simp only [dispatchUnit, gives, if_true]
  rw [lends, startUnit_chunkRead_serving (s := s.lentChannel c _) hb free, lentChannel_reading lt, lentChannel_chunkFirst lt]
  rfl

/-- R113: a copy chunk read that the pool does not give its buffers waits for them. -/
theorem dispatchUnit_chunkReadWaits (hb : b < s.bays.length)
    (waits : s.poolWait ≠ [] ∨ s.poolFree < (s.channel c).chunkCount) :
    dispatchUnit b (.chunkRead c) (s.modBay b g) =
      { (s.modChannel c fun x => { x with phase := .chosen }).modBay b (fun x =>
          { g x with chosen := some (.chunkRead c) }) with
        poolWait := s.poolWait ++ [{ who := .bay b, count := (s.channel c).chunkCount }] } := by
  have gives : (s.modBay b g).poolGives ((s.modBay b g).channel c).chunkCount = false := poolGives_eq_false (s := s) waits
  simp only [dispatchUnit, gives, Bool.false_eq_true, if_false]
  exact waitForPool_eq (s := s.modChannel c fun x => { x with phase := .chosen }) hb _

/-! ### What a dispatch point chooses (R102 to R105) -/

/-- R102: READY, with nothing in service, nothing that waits for buffers and no held move, a dispatch point is due. -/
theorem exec_dispatchPoint (hb : isBay b = true) (ready : (s.bay b).state = .ready) (service : (s.bay b).service = none)
    (op : (s.bay b).op = none) (chosen : (s.bay b).chosen = none) (still : ∀ k l, s.loan k = some l → l.move = none) :
    exec (.dispatchPoint b) s = .next (dispatch b s) := by
  have noMove (k : Nat) : s.moveDue k = false := by
    unfold State.moveDue
    split
    · simp [still k _ ‹_›]
    · rfl
  have due : s.mayDispatch b = true := by simp [State.mayDispatch, ready, service, op, chosen, noMove]
  show execDispatchPoint b s = _
  rw [execDispatchPoint, onBay_eq hb, if_pos due]

/-- R104: due upkeep gives way to RUSH work, at most three times in a row. -/
theorem Bay.defers_iff {x : Bay} :
    x.defers = true ↔ x.upkeepDue = true ∧ (∃ m ∈ x.ring, m.cls = .rush) ∧ x.deferral < 3 := by
  simp [Bay.defers, and_assoc]

/-- R103: due upkeep that does not give way is dispatched. -/
theorem dispatch_upkeep (due : (s.bay b).upkeepDue = true) (firm : (s.bay b).defers = false) :
    dispatch b s = dispatchVerify b s := by
  rw [dispatch, if_pos (by simp [due, firm])]

/-- R103: with upkeep not due the pending chunk write is dispatched. -/
theorem dispatch_chunkWrite (idle : (s.bay b).upkeepDue = false) (pending : (s.bay b).chunkWrite = some c) :
    dispatch b s = startUnit b (.chunkWrite c) (s.modBay b fun x => { x with chunkWrite := none }) := by
  simp [dispatch, Bay.defers, idle, pending]

/-- R104: upkeep that gives way is counted, before the pending chunk write is dispatched. -/
theorem dispatch_defers (hb : b < s.bays.length) (defers : (s.bay b).defers = true) (pending : (s.bay b).chunkWrite = some c) :
    dispatch b s = startUnit b (.chunkWrite c) (s.modBay b fun x => { x with deferral := x.deferral + 1, chunkWrite := none }) := by
  have counted : ((s.modBay b fun x => { x with deferral := x.deferral + 1 }).bay b).chunkWrite = some c :=
    (congrArg Bay.chunkWrite (State.bay_modBay_self hb _)).trans pending
  simp only [dispatch, defers, Bool.not_true, Bool.false_eq_true, and_false, if_false, if_true, counted]
  rw [State.modBay_modBay hb]

/-- R103: with neither, the ring's choice is dispatched. -/
theorem dispatch_ring {m : Member} {ring : List Member} (idle : (s.bay b).upkeepDue = false)
    (noWrite : (s.bay b).chunkWrite = none) (choice : s.ringChoice b = some (m, ring)) :
    dispatch b s = dispatchUnit b m.unit (s.modBay b fun x => { x with ring := ring }) := by
  simp [dispatch, Bay.defers, idle, noWrite, choice]

/-- With nothing to dispatch nothing happens. -/
theorem dispatch_nothing (idle : (s.bay b).upkeepDue = false) (noWrite : (s.bay b).chunkWrite = none)
    (empty : (s.bay b).ring = []) : dispatch b s = s := by
  simp [dispatch, Bay.defers, idle, noWrite, (ringChoice_eq_none_iff s b).mpr empty]

theorem Member.unit_loan {m : Member} {k : Nat} {refs : List CommandRef} (who : m.who = .loan k)
    (queued : m.queued = ref :: refs) : m.unit = .command ref := by
  simp only [Member.unit, who, queued]

theorem Member.unit_channel {m : Member} (who : m.who = .channel c) : m.unit = .chunkRead c := by
  simp only [Member.unit, who]

/-- R142: the verify run is issued from the cursor. -/
theorem dispatchVerify_eq (hb : b < s.bays.length) {capacity : Nat} (known : (s.bay b).capacity = some capacity) :
    dispatchVerify b s = s.modBay b fun x =>
      { x with upkeepDue := false, deferral := 0, service := some .verify
               op := some (.verifyRun x.cursor (min (s.profile b).upkeepLength (capacity - x.cursor)))
               opNumber := x.opNumber + 1, opTimer := 0, opLimit := (s.profile b).operationTimeout } := by
  rw [dispatchVerify, known]
  exact (State.modBay_modBay hb _ _).trans (State.modBay_congr rfl)

end

/-! ### The ring's choice (R111) -/

/-- The ring's choice is one of its members, the same under every larger bound of visits. -/
theorem ringChoice_isSome {s : State} {b : Nat} (nonempty : (s.bay b).ring ≠ []) : ∃ m ring,
    s.ringChoice b = some (m, ring) ∧ (∃ n ∈ (s.bay b).ring, n.who = m.who ∧ n.queued = m.queued ∧ n.cls = m.cls) ∧
      ∀ fuel, ringBound (s.memberCost b) (s.bay b).ring ≤ fuel →
        ringStep (s.quantum b) (s.memberCost b) fuel (s.bay b).ring = some (m, ring) := by
  obtain ⟨⟨m, ring⟩, choice⟩ := Option.ne_none_iff_exists'.mp (mt (ringChoice_eq_none_iff s b).mp nonempty)
  exact ⟨m, ring, choice, (ringStep_offers choice).1, fun fuel le => ringStep_mono le choice⟩

/-- Settles O29: a dispatch point that is due chooses upkeep (`dispatch_upkeep`), the chunk write (`dispatch_chunkWrite`,
`dispatch_defers`) or the ring's unit (`dispatch_ring`), which starts or waits for its buffers. -/
theorem dispatchPointChooses : Obligations.DispatchPointChooses := by
  intro s b hb ready service op chosen still
  have lt := lt_of_ready ready
  have runs := exec_dispatchPoint hb ready service op chosen still
  refine ⟨fun capacity due known firm => ?_, fun c due fewer rush pending => ?_, fun c idle pending => ?_,
    fun idle noWrite empty => ?_, fun m ring k ref refs r idle noWrite choice who queued record => ?_,
    fun m ring c idle noWrite choice who hc busy => ?_, ⟨_, runs⟩, fun nonempty => ?_⟩
  · have holds : (s.bay b).defers = false := by
      rw [← Bool.not_eq_true, Bay.defers_iff]
      rintro ⟨_, ⟨m, mem, rush⟩, fewer⟩
      exact firm.elim (fun slow => slow m mem rush) fewer.not_ge
    rw [runs, dispatch_upkeep due holds, dispatchVerify_eq lt known]
  · rw [runs, dispatch_defers lt (Bay.defers_iff.mpr ⟨due, rush, fewer⟩) pending]
    exact congrArg _ (startUnit_chunkWrite_serving lt chosen)
  · rw [runs, dispatch_chunkWrite idle pending]
    exact congrArg _ (startUnit_chunkWrite_serving lt chosen)
  · rw [runs, dispatch_nothing idle noWrite empty]
  · rw [runs, dispatch_ring idle noWrite choice, Member.unit_loan who queued]
    exact ⟨fun write => congrArg _ (dispatchUnit_write lt chosen record write),
      fun reads empty covered => congrArg _ (dispatchUnit_read lt chosen record reads empty covered),
      fun reads waits => congrArg _ (dispatchUnit_readWaits lt record reads waits)⟩
  · rw [runs, dispatch_ring idle noWrite choice, Member.unit_channel who]
    exact ⟨fun empty covered => congrArg _ (dispatchUnit_chunkRead lt chosen hc busy empty covered),
      fun waits => congrArg _ (dispatchUnit_chunkReadWaits lt waits)⟩
  · obtain ⟨m, ring, choice, member, larger⟩ := ringChoice_isSome nonempty
    refine ⟨m, ring, choice, member, fun set fuel le => ?_⟩
    rw [← larger fuel le, State.quantum, if_neg set]

end Sys2Proof.Machine
end

section
/-! PROOFS. The answer to a VERIFY RUN (O34). -/

namespace Sys2Proof.Machine

section
variable {s : State} {b first count : Nat}

theorem exec_verifyRunAnswer (hb : isBay b = true) (op : (s.bay b).op = some (.verifyRun first count)) {o : VerifyOutcome}
    (within : withinRun first count o = true) :
    exec (.verifyRunAnswer b (s.bay b).opNumber o) s = .next (finish (verifyAnswered b first count o s)) := by
  show execVerifyRunAnswer b _ o s = _
  rw [execVerifyRunAnswer, onBay_eq hb, op]
  simp only [ne_eq, not_true_eq_false, if_false, within, if_true]

/-- The verified blocks first..past−1 have left the weak list (R145). -/
def Bay.verified (first past : Nat) (x : Bay) : Bay :=
  { x with weak := x.weak.filter fun m => !(first ≤ m && m < past) }

/-- A bay whose VERIFY RUN, answered under profile `p`, has come to block `past` (R141, R143). -/
def Bay.runOver (p : Profile) (past : Nat) (x : Bay) : Bay :=
  { x.over with head := past, cursor := if x.capacity = some past then 0 else past, upkeepTimer := upkeepStart p }

theorem verifyAnswered_ok (hb : b < s.bays.length) : verifyAnswered b first count .ok s =
    s.modBay b fun x => (x.verified first (first + count)).runOver (s.profile b) (first + count) :=
  State.modBay_modBay hb (Bay.verified first (first + count)) (Bay.runOver (s.profile b) (first + count))

/-- The verified blocks have left the weak list before the bad one has joined it (R144, log entry 36). -/
def Bay.badFound (first n : Nat) (x : Bay) : Bay :=
  { x.verified first n with weak := joinedWeak (x.verified first n).weak n }

theorem weakJoin_verified (hb : b < s.bays.length) (n : Nat) : weakJoin b n (s.modBay b (Bay.verified first n)) =
    { s.modBay b (Bay.badFound first n) with notices := s.weakNotices b ((s.bay b).verified first n).weak n } := by
  rw [weakJoin_eq, State.modBay_modBay hb, State.bay_modBay_self hb]
  rfl

theorem verifyAnswered_mediaError (hb : b < s.bays.length) (n : Nat) : verifyAnswered b first count (.mediaError n) s =
    { s.modBay b (fun x => (x.badFound first n).runOver (s.profile b) (n + 1)) with
      notices := s.weakNotices b ((s.bay b).verified first n).weak n } := by
  show (weakJoin b n (s.modBay b (Bay.verified first n))).modBay b
    (Bay.runOver ((weakJoin b n (s.modBay b (Bay.verified first n))).profile b) (n + 1)) = _
  rw [weakJoin_verified hb]
  exact congrArg (fun u : State => { u with notices := s.weakNotices b ((s.bay b).verified first n).weak n })
    (State.modBay_modBay hb (Bay.badFound first n) (Bay.runOver (s.profile b) (n + 1)))

end

/-- Settles O34: what the answer leaves of the bay is `verifyAnswered_ok` or `verifyAnswered_mediaError`. -/
theorem verifyRunMovesCursor : Obligations.VerifyRunMovesCursor := by
  intro s b number first count hb settled op numbered timer without after
  subst numbered
  have lt := lt_of_op op
  refine ⟨?_, fun n low high => ?_⟩
  · have bay : (s.modBay b fun x => (x.verified first (first + count)).runOver (s.profile b) (first + count)) =
        s.modBay b fun x => after x (first + count) (without (first + count)) := State.modBay_congr rfl
    rw [exec_verifyRunAnswer hb op rfl, verifyAnswered_ok lt, bay]
    exact congrArg _ (finish_of_settled settled)
  · have bay : (s.modBay b fun x => (x.badFound first n).runOver (s.profile b) (n + 1)) =
        s.modBay b fun x => after x (n + 1) (joinedWeak (without n) n) := State.modBay_congr rfl
    rw [exec_verifyRunAnswer hb op (by simp [withinRun, low, high]), verifyAnswered_mediaError lt, bay]
    exact congrArg _ (finish_of_settled settled)

end Sys2Proof.Machine
end

section
/-! PROOFS. The answers to the block operations of a copy chunk (O32). -/

namespace Sys2Proof.Machine

/-- A channel one more buffer of which is filled. -/
def Channel.filling (data : Block) (x : Channel) : Channel := { x with filled := x.filled ++ [data] }

/-- A channel that has come to phase `p`. -/
def Channel.entering (p : Phase) (x : Channel) : Channel := { x with phase := p }

/-- The state after the answer to a block operation of copy channel `c` on bay `b`: the channel is changed by `f` and the bay by
`g`. -/
def State.afterChunk (s : State) (b c : Nat) (f : Channel → Channel) (g : Bay → Bay) : State := (s.modChannel c f).modBay b g

/-- A bay whose operation in service is over. -/
def Bay.idle (x : Bay) : Bay := { x with service := none }

section
variable {s : State} {b c n : Nat} {data : Block} {w : Twin} {e : CopyEnd} {f : Channel → Channel} {g : Bay → Bay}

theorem afterChunk_issueOp (hb : b < s.bays.length) (op : DiskOp) :
    issueOp b op (s.afterChunk b c f g) = s.afterChunk b c f fun x => (g x).issued (s.profile b) op :=
  State.modBay_modBay (s := s.modChannel c f) hb _ _

theorem afterChunk_endService (hb : b < s.bays.length) :
    endService b (s.afterChunk b c f g) = s.afterChunk b c f fun x => (g x).idle :=
  State.modBay_modBay (s := s.modChannel c f) hb _ _

theorem afterChunk_modChannel (hc : c < s.channels.length) (f' : Channel → Channel) :
    (s.afterChunk b c f g).modChannel c f' = s.afterChunk b c (fun x => f' (f x)) g :=
  congrArg (State.modBay · b g) (State.modChannel_modChannel hc f f')

/-- The operation in service is over, and the channel's unit with it. -/
theorem afterChunk_over (hb : b < s.bays.length) (hc : c < s.channels.length) (f' : Channel → Channel) :
    (endService b (s.afterChunk b c f g)).modChannel c f' = s.afterChunk b c (fun x => f' (f x)) fun x => (g x).idle := by
  rw [afterChunk_endService hb, afterChunk_modChannel hc]

/-! ### A chunk read (R155, R157) -/

theorem readAnswered_chunk (hb : b < s.bays.length) (service : (s.bay b).service = some (.chunkRead c)) :
    readAnswered b n (.ok data) s = chunkReadOk b c data (s.modBay b (Bay.blockDone n)) := by
  have left : ((s.modBay b fun x => { x.opOver with head := n + 1 }).bay b).service = some (.chunkRead c) :=
    (congrArg Bay.service (State.bay_modBay_self hb (Bay.blockDone n))).trans service
  simp only [readAnswered, left]
  rfl

theorem exec_chunkReadOk (hb : isBay b = true) (settled : s.Settled) (size : data.length = Config.blockBytes)
    (op : (s.bay b).op = some (.readBlock n)) (service : (s.bay b).service = some (.chunkRead c)) {t : State}
    (reads : chunkReadOk b c data (s.modBay b (Bay.blockDone n)) = t) (same : t.scanDue = s.scanDue) :
    exec (.readBlockAnswer b (s.bay b).opNumber (.ok data)) s = .next t := by
  rw [exec_readBlockAnswer hb op (by simpa [ReadOutcome.wellFormed] using size), readAnswered_chunk (lt_of_op op) service, reads,
    finish_of_settled (same.trans settled)]

/-- R155, R157: with blocks of the chunk left, the next READ BLOCK is issued, but for a copy that ends ABORTED. -/
theorem chunkReadOk_next (hb : b < s.bays.length) (more : (s.channel c).filled.length + 1 ≠ (s.channel c).chunkCount)
    (goesOn : (s.channel c).endStatus ≠ some .aborted) : chunkReadOk b c data (s.modBay b g) =
      s.afterChunk b c (Channel.filling data) fun x =>
        (g x).issued (s.profile b) (.readBlock ((s.channel c).chunkFirst + (s.channel c).filled.length + 1)) := by
  have channel : (s.modBay b g).channel c = s.channel c := rfl
  simp only [chunkReadOk, channel, List.length_append, List.length_singleton, more, goesOn, if_false]
  exact afterChunk_issueOp (f := Channel.filling data) hb _

/-- R155: the chunk is read whole, and its write is handed to the target bay. -/
theorem chunkReadOk_handsOver (hb : b < s.bays.length) (hc : c < s.channels.length)
    (last : (s.channel c).filled.length + 1 = (s.channel c).chunkCount) (runs : (s.channel c).endStatus = none)
    (twin : s.twin (s.channel c).twin = some w) : chunkReadOk b c data (s.modBay b g) =
      (s.afterChunk b c (fun x => (x.filling data).entering .pending) fun x => (g x).idle).modBay w.target fun x =>
        { x with chunkWrite := some c } := by
  have channel : (s.modBay b g).channel c = s.channel c := rfl
  have there : (endService b ((s.modBay b g).modChannel c fun x =>
      { x with filled := (s.channel c).filled ++ [data] })).twin (s.channel c).twin = some w := twin
  have ended := afterChunk_over (f := Channel.filling data) (g := g) hb hc (Channel.entering .pending)
  simp only [chunkReadOk, channel, List.length_append, List.length_singleton, last, if_true, runs, there]
  exact congrArg (State.modBay · w.target fun x => { x with chunkWrite := some c }) ended

/-- R157: the copy's end is decided: the chunk read whole, or cut where the copy ends ABORTED, leaves the channel without a unit. -/
theorem chunkReadOk_ends (hb : b < s.bays.length) (hc : c < s.channels.length) (ends : (s.channel c).endStatus = some e)
    (finished : (s.channel c).filled.length + 1 = (s.channel c).chunkCount ∨ e = .aborted) :
    chunkReadOk b c data (s.modBay b g) =
      s.afterChunk b c (fun x => (x.filling data).entering .none) fun x => (g x).idle := by
  have channel : (s.modBay b g).channel c = s.channel c := rfl
  have left := afterChunk_over (f := Channel.filling data) (g := g) hb hc (Channel.entering .none)
  simp only [chunkReadOk, channel, List.length_append, List.length_singleton, ends]
  by_cases last : (s.channel c).filled.length + 1 = (s.channel c).chunkCount
  · rw [if_pos last]
    exact left
  · obtain rfl := finished.resolve_left last
    rw [if_neg last, if_pos rfl]
    exact left

/-! ### A chunk write (R156, R157) -/

theorem writeAnswered_chunk (hb : b < s.bays.length) (service : (s.bay b).service = some (.chunkWrite c)) :
    writeAnswered b n .ok s = chunkWriteOk b c n (s.modBay b (Bay.written n)) := by
  have removed : weakRemove b (fun m => m == n) (s.modBay b fun x => { x.opOver with head := n + 1 }) =
      s.modBay b (Bay.written n) := State.modBay_modBay hb _ _
  have left : ((s.modBay b (Bay.written n)).bay b).service = some (.chunkWrite c) := by
    rw [State.bay_modBay_self hb]; exact service
  simp only [writeAnswered, removed, left]

theorem exec_chunkWriteOk {bytes : Block} (hb : isBay b = true) (op : (s.bay b).op = some (.writeBlock n bytes))
    (service : (s.bay b).service = some (.chunkWrite c)) : exec (.writeBlockAnswer b (s.bay b).opNumber .ok) s =
      .next (finish (chunkWriteOk b c n (s.modBay b (Bay.written n)))) := by
  rw [exec_writeBlockAnswer hb op, writeAnswered_chunk (lt_of_op op) service]

/-- R156, R157: with blocks of the chunk left, the next WRITE BLOCK is issued, but for a copy that ends ABORTED. -/
theorem chunkWriteOk_next (hb : b < s.bays.length) (more : n + 1 - (s.channel c).chunkFirst ≠ (s.channel c).chunkCount)
    (goesOn : (s.channel c).endStatus ≠ some .aborted) : chunkWriteOk b c n (s.modBay b g) =
      s.modBay b fun x => (g x).issued (s.profile b)
        (.writeBlock (n + 1) ((s.channel c).filled.getD (n + 1 - (s.channel c).chunkFirst) [])) := by
  have channel : (s.modBay b g).channel c = s.channel c := rfl
  simp only [chunkWriteOk, channel, more, goesOn, if_false]
  exact State.modBay_modBay hb _ _

/-- R157: a chunk write is cut where the copy ends ABORTED. -/
theorem chunkWriteOk_cut (hb : b < s.bays.length) (more : n + 1 - (s.channel c).chunkFirst ≠ (s.channel c).chunkCount)
    (ends : (s.channel c).endStatus = some .aborted) : chunkWriteOk b c n (s.modBay b g) =
      s.afterChunk b c (Channel.entering .none) fun x => (g x).idle := by
  have channel : (s.modBay b g).channel c = s.channel c := rfl
  simp only [chunkWriteOk, channel, more, ends, if_true, if_false]
  exact afterChunk_endService (f := Channel.entering .none) hb

/-- A bay whose WRITE BLOCK of block `n` has answered OK, and was the last of its operation in service. -/
def Bay.lastWritten (n : Nat) (x : Bay) : Bay :=
  { x with head := n + 1, weak := x.weak.filter (fun m => m != n), op := none, opTimer := 0, opLimit := 0, service := none }

/-- R156: the chunk is written whole. -/
theorem chunkWriteOk_whole (hb : b < s.bays.length) (last : n + 1 - (s.channel c).chunkFirst = (s.channel c).chunkCount) :
    chunkWriteOk b c n (s.modBay b (Bay.written n)) = chunkWritten c (s.modBay b (Bay.lastWritten n)) := by
  have channel : (s.modBay b (Bay.written n)).channel c = s.channel c := rfl
  have ended : endService b (s.modBay b (Bay.written n)) = s.modBay b (Bay.lastWritten n) := State.modBay_modBay hb _ _
  simp only [chunkWriteOk, channel, last, if_true, ended]

/-! ### After the chunk (R156) -/

/-- The twin record once `count` blocks more are copied. -/
def Twin.copied (count : Nat) (w : Twin) : Twin := { w with next := w.next + count }

/-- A channel that has returned its buffers and has no unit. -/
def Channel.vacated (x : Channel) : Channel := { x with held := 0, filled := [], phase := .none }

/-- A channel whose chunk read of `count` blocks at `first` is queued. -/
def Channel.queuing (first count : Nat) (x : Channel) : Channel :=
  { x with phase := .queued, chunkFirst := first, chunkCount := count }

/-- The state after the last block of channel `c`'s chunk has been written for twin record `w`. -/
def State.chunkCopied (s : State) (c : Nat) (w : Twin) : State :=
  { (s.setTwin (s.channel c).twin (some (w.copied (s.channel c).chunkCount))).modChannel c Channel.vacated with
    poolFree := s.poolFree + (s.channel c).held }

theorem State.modTwin_eq {t : Nat} (h : s.twin t = some w) (f : Twin → Twin) : s.modTwin t f = s.setTwin t (some (f w)) := by
  simp only [State.modTwin, h]

/-- The buffers return, the record counts the chunk, and the channel has no unit. -/
theorem chunkCopied_eq (hc : c < s.channels.length) (twin : s.twin (s.channel c).twin = some w) :
    (((giveBackChannel c s).modTwin (s.channel c).twin fun w => { w with next := w.next + (s.channel c).chunkCount }).modChannel c
      fun x => { x with phase := .none }) = s.chunkCopied c w := by
  have there : (giveBackChannel c s).twin (s.channel c).twin = some w := twin
  rw [State.modTwin_eq there]
  exact congrArg (fun u : State => { u.setTwin (s.channel c).twin (some (w.copied (s.channel c).chunkCount)) with
      poolFree := s.poolFree + (s.channel c).held })
    (State.modChannel_modChannel hc (fun x => { x with held := 0, filled := [] }) fun x => { x with phase := .none })

theorem chunkCopied_twin (twin : s.twin (s.channel c).twin = some w) :
    (s.chunkCopied c w).twin (s.channel c).twin = some (w.copied (s.channel c).chunkCount) :=
  State.twin_setTwin_self s _ _ (State.twin_lt_of_some s _ _ twin)

theorem chunkCopied_channel (hc : c < s.channels.length) : (s.chunkCopied c w).channel c = (s.channel c).vacated :=
  State.channel_setChannel_self s c _ hc

/-- R157: a copy whose end is decided goes no further. -/
theorem chunkWritten_ends (hc : c < s.channels.length) (twin : s.twin (s.channel c).twin = some w)
    (ends : (s.channel c).endStatus = some e) : chunkWritten c s = s.chunkCopied c w := by
  simp only [chunkWritten, chunkCopied_eq hc twin, ends]

/-- The copy of channel `c` is complete: its record is LIVE, the channel is free, and the COPY notice says so (log entry 24). -/
def State.copyDone (s : State) (c : Nat) (w : Twin) : State :=
  { (s.setTwin (s.channel c).twin (some { w.copied (s.channel c).chunkCount with state := .live, channel := none })).setChannel c
      Channel.free with
    poolFree := s.poolFree + (s.channel c).held
    notices := { s.notices with copy := { s.notices.copy with
      pending := true, count := min 255 (s.notices.copy.count + 1), subject := (s.channel c).twin, status := .done } } }

theorem chunkWritten_done (hc : c < s.channels.length) (twin : s.twin (s.channel c).twin = some w)
    (runs : (s.channel c).endStatus = none) (done : w.last < w.next + (s.channel c).chunkCount) :
    chunkWritten c s = (s.copyDone c w).oweScan := by
  have past : (w.copied (s.channel c).chunkCount).last < (w.copied (s.channel c).chunkCount).next := done
  simp only [chunkWritten, chunkCopied_eq hc twin, runs, chunkCopied_twin twin, past, if_true]
  refine congrArg State.oweScan ?_
  simp only [occur, State.chunkCopied, State.copyDone, State.setTwin, State.setChannel, State.modChannel, List.set_set]
  rfl

/-- The copy of channel `c` goes on: its next chunk read has joined the source's ring. -/
def State.copyQueued (s : State) (c : Nat) (w : Twin) : State :=
  let next : Nat := w.next + (s.channel c).chunkCount
  ringJoin w.source (channelMember c)
    { (s.setTwin (s.channel c).twin (some (w.copied (s.channel c).chunkCount))).modChannel c (fun x =>
        x.vacated.queuing next (min 32 (w.last - next + 1))) with
      poolFree := s.poolFree + (s.channel c).held }

/-- R154, R156: with blocks left to copy, the next chunk read joins the source's ring. -/
theorem chunkWritten_goesOn (hc : c < s.channels.length) (twin : s.twin (s.channel c).twin = some w)
    (runs : (s.channel c).endStatus = none) (left : w.next + (s.channel c).chunkCount ≤ w.last) :
    chunkWritten c s = s.copyQueued c w := by
  have inside : ¬(w.copied (s.channel c).chunkCount).last < (w.copied (s.channel c).chunkCount).next := left.not_gt
  have named : (s.chunkCopied c w).twin ((s.chunkCopied c w).channel c).twin = some (w.copied (s.channel c).chunkCount) := by
    rw [chunkCopied_channel hc]
    exact chunkCopied_twin twin
  simp only [chunkWritten, chunkCopied_eq hc twin, runs, chunkCopied_twin twin, inside, if_false]
  rw [queueChunkRead_eq named]
  exact congrArg (fun u : State => ringJoin w.source (channelMember c)
      { u.setTwin (s.channel c).twin (some (w.copied (s.channel c).chunkCount)) with
        poolFree := s.poolFree + (s.channel c).held })
    (State.modChannel_modChannel hc Channel.vacated (Channel.queuing (w.next + (s.channel c).chunkCount)
      (min 32 (w.last - (w.next + (s.channel c).chunkCount) + 1))))

/-! ### A bad block (R144, R157) -/

theorem readAnswered_chunkBad (hb : b < s.bays.length) (service : (s.bay b).service = some (.chunkRead c)) :
    readAnswered b n .mediaError s =
      (s.badBlock b n).modChannel c fun x => { x with phase := .none, endStatus := some .aborted } := by
  have left : ((weakJoin b n (s.modBay b fun x => { x.opOver with head := n + 1 })).bay b).service = some (.chunkRead c) :=
    (service_weakJoin hb n).trans service
  simp only [readAnswered, left]
  exact congrArg (State.modChannel · c fun x => { x with phase := .none, endStatus := some .aborted }) (endService_weakJoin hb n)

theorem writeAnswered_chunkBad (hb : b < s.bays.length) (service : (s.bay b).service = some (.chunkWrite c)) :
    writeAnswered b n .mediaError s =
      (s.badBlock b n).modChannel c fun x => { x with phase := .none, endStatus := some .aborted } := by
  have left : ((weakJoin b n (s.modBay b fun x => { x.opOver with head := n + 1 })).bay b).service = some (.chunkWrite c) :=
    (service_weakJoin hb n).trans service
  simp only [writeAnswered, left]
  exact congrArg (State.modChannel · c fun x => { x with phase := .none, endStatus := some .aborted }) (endService_weakJoin hb n)

end

/-- Settles O32: a chunk is read (`chunkReadOk_next`), handed over (`chunkReadOk_handsOver`) or ends (`chunkReadOk_ends`); it is
written (`chunkWriteOk_next`), cut (`chunkWriteOk_cut`) or written whole (`chunkWriteOk_whole`), after which the copy goes on
(`chunkWritten_goesOn`), is complete (`chunkWritten_done`) or ends (`chunkWritten_ends`). -/
theorem copyChunksMove : Obligations.CopyChunksMove := by
  refine ⟨?_, ?_, ?_, ?_, ?_⟩
  · intro s b number block c data w hb settled hc size op numbered service runs twin _
    subst numbered
    have lt := lt_of_op op
    refine ⟨fun more => ?_, fun last => ?_⟩
    · exact exec_chunkReadOk hb settled size op service (chunkReadOk_next lt more.ne (by simp [runs])) rfl
    · exact exec_chunkReadOk hb settled size op service (chunkReadOk_handsOver lt hc last runs twin) rfl
  · intro s b number block c bytes w hb settled hc op numbered service runs _ twin _ i
    subst numbered
    have lt := lt_of_op op
    have ok := exec_chunkWriteOk hb op service
    refine ⟨fun more => ?_, fun last done waits => ?_, fun last left => ?_⟩
    · rw [ok, chunkWriteOk_next lt more (by simp [runs]), finish_of_settled (s := s.modBay b _) settled]
      rfl
    · rw [ok, chunkWriteOk_whole lt last, chunkWritten_done (s := s.modBay b _) hc twin runs done,
        finish_oweScan (s := (s.modBay b _).copyDone c w) waits settled]
      rfl
    · rw [ok, chunkWriteOk_whole lt last, chunkWritten_goesOn (s := s.modBay b _) hc twin runs left,
        finish_of_settled (s := (s.modBay b _).copyQueued c w) settled]
      rfl
  · intro s b number block c data e hb settled hc size op numbered service ends last
    subst numbered
    have lt := lt_of_op op
    refine ⟨fun finished => ?_, fun more halted => ?_⟩
    · exact exec_chunkReadOk hb settled size op service (chunkReadOk_ends lt hc ends finished) rfl
    · exact exec_chunkReadOk hb settled size op service (chunkReadOk_next lt more (by simp [ends, halted])) rfl
  · intro s b number block c bytes w e hb settled hc op numbered service ends twin i written
    subst numbered
    have lt := lt_of_op op
    have ok := exec_chunkWriteOk hb op service
    refine ⟨fun last => ?_, fun more aborted => ?_, fun more halted => ?_⟩
    · rw [ok, chunkWriteOk_whole lt last, chunkWritten_ends (s := s.modBay b _) hc twin ends,
        finish_of_settled (s := (s.modBay b _).chunkCopied c w) settled]
      rfl
    · rw [ok, chunkWriteOk_cut lt more (aborted ▸ ends), finish_of_settled (s := s.afterChunk b c _ _) settled]
      rfl
    · rw [ok, chunkWriteOk_next lt more (by simp [ends, halted]), finish_of_settled (s := s.modBay b _) settled]
      rfl
  · intro s b number block c hb settled numbered failed
    subst numbered
    refine ⟨fun op service => ?_, fun bytes op service => ?_⟩
    · rw [exec_readBlockAnswer hb op rfl, readAnswered_chunkBad (lt_of_op op) service]
      exact congrArg _ (finish_of_settled settled)
    · rw [exec_writeBlockAnswer hb op, writeAnswered_chunkBad (lt_of_op op) service]
      exact congrArg _ (finish_of_settled settled)

end Sys2Proof.Machine
end

section
/-! PROOFS. Bays are admitted to SPINNING (O37). -/

namespace Sys2Proof.Machine

/-- R129: a bay in SPINNING on which SPIN UP has been issued, under profile `p`. -/
def Bay.admitted (p : Profile) (x : Bay) : Bay :=
  { x with state := .spinning, powerOnSpin := false, op := some .spinUp, opNumber := x.opNumber + 1, opTimer := 0
           opLimit := if x.powerOnSpin then 3000 else p.spinLimit }

/-- R184: what one more change of state makes of the BAY notice. -/
def Notice.ofBay (n : Notice) (b : Nat) : Notice :=
  { n with pending := true, count := min 255 (n.count + 1), subject := b }

section
variable {s t : State} {b c : Nat} {q rest bs : List Nat}

/-! ### One admission (R128, R129) -/

/-- The state after bay `b` has been admitted, the spin queue `rest` being left. -/
def State.admitting (s : State) (b : Nat) (rest : List Nat) : State :=
  { s.modBay b (Bay.admitted (s.profile b)) with spinQueue := rest, notices := s.bayNotice b }

theorem admitBay_eq (h : b < s.bays.length) : admitBay b { s with spinQueue := rest } = s.admitting b rest := by
  let u : State := { s with spinQueue := rest, notices := s.bayNotice b }
  calc admitBay b { s with spinQueue := rest }
    _ = ((u.modBay b fun x => { x with state := .spinning }).modBay b
          (Bay.issued (s.profile b) .spinUp)).modBay b fun x => { x with powerOnSpin := false } := rfl
    _ = s.admitting b rest := by
      rw [State.modBay_modBay (s := u) h, State.modBay_modBay (s := u) h]
      rfl

theorem State.admitting_bay_self (h : b < s.bays.length) :
    (s.admitting b rest).bay b = (s.bay b).admitted (s.profile b) := State.bay_setBay_self s b _ h

theorem State.admitting_bay_ne (h : c ≠ b) : (s.admitting b rest).bay c = s.bay c := State.bay_setBay_ne s b c _ h.symm

theorem State.admitting_size : (s.admitting b rest).bays.length = s.bays.length := List.length_set ..

/-- R128: the admission of a bay that is not in SPINNING makes one more in SPINNING. -/
theorem State.spinningCount_admitting (h : b < s.bays.length) (other : (s.bay b).state ≠ .spinning) :
    (s.admitting b rest).spinningCount = s.spinningCount + 1 := by
  have before : (s.bays[b].state == .spinning) = false := by
    rw [State.bay, List.getD_eq_getElem _ _ h] at other
    exact beq_false_of_ne other
  refine (List.countP_set h).trans ?_
  rw [before]
  rfl

/-- An admission leaves the other bays alone, be the admitted one in the table or not. -/
theorem admitBay_bay_ne (s : State) (h : c ≠ b) : (admitBay b s).bay c = s.bay c := calc
  _ = (issueOp b .spinUp (setBayState b .spinning s)).bay c := State.bay_setBay_ne _ _ _ _ h.symm
  _ = (setBayState b .spinning s).bay c := State.bay_setBay_ne _ _ _ _ h.symm
  _ = s.bay c := State.bay_setBay_ne s _ _ _ h.symm

/-! ### The walk of the queue (R127, R128) -/

/-- While there is room, the walk goes on with the rest of the queue. -/
theorem admitFrom_cons (room : s.spinningCount < s.settings.spinGroup) :
    admitFrom (b :: rest) s = admitFrom rest (admitBay b { s with spinQueue := rest }) := if_pos room

theorem admitFrom_full (q : List Nat) (full : s.settings.spinGroup ≤ s.spinningCount) : admitFrom q s = s := by
  cases q with
  | nil => rfl
  | cons b rest => exact if_neg full.not_gt

/-- The walk ends with an end of the queue: an empty one, or one that finds G bays in SPINNING. -/
theorem admitFrom_spinQueue (queue : s.spinQueue = q) : (admitFrom q s).spinQueue <:+ q ∧
    ((admitFrom q s).spinQueue = [] ∨ s.settings.spinGroup ≤ (admitFrom q s).spinningCount) := by
  induction q generalizing s with
  | nil => exact ⟨⟨[], queue⟩, .inl queue⟩
  | cons b rest ih =>
    by_cases room : s.spinningCount < s.settings.spinGroup
    · obtain ⟨suffix, fills⟩ := ih (s := admitBay b { s with spinQueue := rest }) rfl
      rw [admitFrom_cons room]
      exact ⟨suffix.trans (List.suffix_cons b rest), fills⟩
    · have full := Nat.le_of_not_lt room
      rw [admitFrom_full _ full, queue]
      exact ⟨List.suffix_refl _, .inr full⟩

/-- The walk leaves a bay that is not on the queue as it is. -/
theorem admitFrom_bay (out : c ∉ q) : (admitFrom q s).bay c = s.bay c := by
  induction q generalizing s with
  | nil => rfl
  | cons b rest ih =>
    obtain ⟨ne, out⟩ := not_or.mp (List.mem_cons.not.mp out)
    by_cases room : s.spinningCount < s.settings.spinGroup
    · rw [admitFrom_cons room, ih out]
      exact admitBay_bay_ne _ ne
    · rw [admitFrom_full _ (Nat.le_of_not_lt room)]

/-! ### How many are admitted (R121, R128) -/

/-- `t` is `s` with the bays `bs` admitted in turn and the spin queue `q` left. -/
structure Admitted (s : State) (bs q : List Nat) (t : State) : Prop where
  others : t = { s with bays := t.bays, spinQueue := q, notices := { s.notices with bay := bs.foldl Notice.ofBay s.notices.bay } }
  size   : t.bays.length = s.bays.length
  bays   : ∀ c, t.bay c = if c ∈ bs then (s.bay c).admitted (s.profile c) else s.bay c

theorem Admitted.nil (s : State) : Admitted s [] s.spinQueue s := ⟨rfl, rfl, fun _ => rfl⟩

theorem Admitted.cons (h : b < s.bays.length) (out : b ∉ bs) (later : Admitted (s.admitting b rest) bs q t) :
    Admitted s (b :: bs) q t := by
  refine ⟨later.others, later.size.trans State.admitting_size, fun c => (later.bays c).trans ?_⟩
  by_cases same : c = b
  · subst same
    rw [if_neg out, if_pos List.mem_cons_self, State.admitting_bay_self h]
  · simp only [List.mem_cons, same, false_or, State.admitting_bay_ne same]
    rfl

/-- R128: from a queue of bays in SPIN_WAIT, each standing there once, as many are admitted as G leaves room for. -/
theorem admitFrom_admitted (queue : s.spinQueue = q) (once : q.Nodup)
    (waiting : ∀ b ∈ q, b < s.bays.length ∧ (s.bay b).state = .spinWait) :
    Admitted s (q.take (s.settings.spinGroup - s.spinningCount)) (q.drop (s.settings.spinGroup - s.spinningCount))
      (admitFrom q s) := by
  induction q generalizing s with
  | nil => simpa [queue, admitFrom] using Admitted.nil s
  | cons b rest ih =>
    by_cases space : s.spinningCount < s.settings.spinGroup
    · obtain ⟨out, once⟩ := List.nodup_cons.mp once
      obtain ⟨lt, state⟩ := waiting b List.mem_cons_self
      have count : (s.admitting b rest).spinningCount = s.spinningCount + 1 :=
        State.spinningCount_admitting lt (by rw [state]; decide)
      have room : s.settings.spinGroup - s.spinningCount =
          (s.admitting b rest).settings.spinGroup - (s.admitting b rest).spinningCount + 1 := by
        rw [count, show (s.admitting b rest).settings = s.settings from rfl]
        omega
      rw [admitFrom_cons space, admitBay_eq lt, room]
      refine .cons lt (fun mem => out (List.mem_of_mem_take mem)) (ih rfl once fun c mem => ?_)
      rw [State.admitting_size, State.admitting_bay_ne (show c ≠ b from fun e => out (e ▸ mem))]
      exact waiting c (List.mem_cons_of_mem b mem)
    · have full := Nat.le_of_not_lt space
      rw [admitFrom_full _ full, Nat.sub_eq_zero_of_le full, List.take_zero, List.drop_zero, ← queue]
      exact .nil s

end

/-- Settles O37: the walk of the queue stops at once (`admitFrom_full`), admits its head and ends with the queue empty or G bays
in SPINNING (`admitFrom_spinQueue`), or admits as many as there is room for (`admitFrom_admitted`). -/
theorem spinAdmitFills : Obligations.SpinAdmitFills := by
  refine ⟨fun s idle => ?_, fun s b rest queue lt out room => ⟨_, rfl, ?_⟩, fun s once waiting => ⟨_, rfl, ?_⟩⟩
  · show execSpinAdmit s = _
    rw [execSpinAdmit]
    rcases idle with empty | full
    · rw [empty, admitFrom]
    · rw [admitFrom_full _ full]
  · rw [queue, admitFrom_cons room, admitBay_eq lt]
    exact ⟨(admitFrom_bay out).trans (State.admitting_bay_self lt), admitFrom_spinQueue (s := s.admitting b rest) rfl⟩
  · obtain ⟨others, size, bays⟩ := admitFrom_admitted rfl once waiting
    exact ⟨others, size, bays⟩

end Sys2Proof.Machine
end

section
/-! PROOFS. A block joins a weak list (O33). -/

namespace Sys2Proof.Machine

/-- Settles O33: the join by `weakJoin_eq`, its list and its notices by what stands on the list before it. -/
theorem weakListJoin : Obligations.WeakListJoin := by
  intro s b n _ weak
  have joins := weakJoin_eq (b := b) n s
  refine ⟨fun listed => ?_, fun new short => ?_, fun new full => ?_⟩
  · have same : s.modBay b (fun x => { x with weak := joinedWeak x.weak n }) = s :=
      State.modBay_same s b (by rw [joinedWeak, if_pos listed])
    have silent : s.weakNotices b weak n = s.notices := if_pos listed
    rw [joins, same, silent]
  · have list : joinedWeak weak n = weak ++ [n] := by rw [joinedWeak, if_neg new, if_pos (by omega)]
    have unworn : (joinedWeak weak n).length ≠ 16 := by rw [list, List.length_append, List.length_singleton]; omega
    have bay : s.modBay b (fun x => { x with weak := joinedWeak x.weak n }) =
        s.modBay b fun x => { x with weak := x.weak ++ [n] } :=
      State.modBay_congr (congrArg (fun w => { s.bay b with weak := w }) list)
    rw [joins, bay, State.weakNotices, if_neg new, if_neg unworn]
  · have list : joinedWeak weak n = (if weak.length = 16 then weak.tail else weak) ++ [n] := by
      rw [joinedWeak, if_neg new]
      rcases full with h | h <;> simp [h]
    have worn : (joinedWeak weak n).length = 16 := by
      rw [list]
      rcases full with h | h <;> simp [h]
    have bay : s.modBay b (fun x => { x with weak := joinedWeak x.weak n }) =
        s.modBay b fun x => { x with weak := (if x.weak.length = 16 then x.weak.tail else x.weak) ++ [n] } :=
      State.modBay_congr (congrArg (fun w => { s.bay b with weak := w }) list)
    rw [joins, bay, State.weakNotices, if_neg new, if_pos worn]

end Sys2Proof.Machine
end

section
/-! PROOFS. RESTORE BAY (O41). -/

namespace Sys2Proof.Machine

/-! ### The checks (R174) -/

/-- A supervisor's command whose body fails a check is rejected. -/
theorem State.CanTake.supervised_rejects {α : Type} {s : State} {kind : Nat} {f : Frame} {form : List Byte → Form α}
    {r : Reject} (h : s.CanTake 0 kind 1 f) (tag : f.tag ≠ 0) (fails : form f.body = .error r)
    (act : Frame → α → State → State) :
    Machine.supervised kind (formed form act) s = .next (s.answer 0 f (.reject r.reason r.place r.offset kind)) := by
  have rejects : formed form act f (s.took 0 1) = reject 0 f r (s.took 0 1) := by rw [formed, fails]
  rw [h.supervised tag, rejects, reject, finish_reply_took h.settled h.presence, h.isKind]

/-- A supervisor's command whose body passes its checks acts on what it reads. -/
theorem State.CanTake.supervised_acts {α : Type} {s : State} {kind : Nat} {f : Frame} {form : List Byte → Form α} {a : α}
    (h : s.CanTake 0 kind 1 f) (tag : f.tag ≠ 0) (passes : form f.body = .ok a) (act : Frame → α → State → State) :
    Machine.supervised kind (formed form act) s = .next (finish (act f a (s.took 0 1))) := by
  rw [h.supervised tag, formed, passes]

/-- R134, R140: the checks of the body of RELEASE BAY and RESTORE BAY, in their order. -/
theorem bayForm_eq (body : List Byte) : bayForm body =
    if body.length < 1 then .error (rejectLength body 1)
    else if ¬ field body 0 1 < 24 then .error (rejectField 0)
    else .ok (field body 0 1) := by
  simp only [bayForm, atLeast_bind, demand_bind, decide_eq_true_eq]
  rfl

/-! ### The bay (R140) -/

section
variable {s : State} {b : Nat}

/-- R140: a bay in RELEASED or FAULTED, or seated in EMPTY. -/
def State.restorable (s : State) (b : Nat) : Prop :=
  (s.bay b).state = .released ∨ (s.bay b).state = .faulted ∨ ((s.bay b).state = .empty ∧ (s.bay b).presence = true)

/-- A bay that can be restored stands in the table: what is not there is in EMPTY with its presence line low. -/
theorem State.restorable.lt (h : s.restorable b) : b < s.bays.length := by
  rcases h with released | faulted | ⟨-, seated⟩
  · exact State.bay_lt_of_ne Bay.state (by rw [released]; decide)
  · exact State.bay_lt_of_ne Bay.state (by rw [faulted]; decide)
  · exact State.bay_lt_of_ne Bay.presence (by rw [seated]; decide)

/-- R123, R140, R147: a bay enters SPIN_WAIT at the tail of the spin queue. -/
theorem enterSpinWait_eq (h : b < s.bays.length) : enterSpinWait b s =
    { s.modBay b (fun x => { x with state := .spinWait, faultCause := none, powerOnSpin := false }) with
      spinQueue := s.spinQueue ++ [b], notices := s.bayNotice b } := by
  rw [enterSpinWait, setBayState_modBay h]
  rfl

end

/-- Settles O41: the body's checks (`bayForm_eq`), and the answer by the bay's state. -/
theorem restoreBayActsByState : Obligations.RestoreBayActsByState := by
  intro s f h tag b
  have rejected (r : Reject) (form : bayForm f.body = .error r) :
      exec .restoreBay s = .next (s.answer 0 f (.reject r.reason r.place r.offset kindRestoreBay)) :=
    h.supervised_rejects tag form restoreAct
  refine ⟨fun short => ?_, fun long out => ?_, fun long inside => ?_⟩
  · rw [rejected (rejectLength f.body 1) (by rw [bayForm_eq, if_pos short])]
    simp [rejectLength, Nat.lt_one_iff.mp short]
  · exact rejected (rejectField 0) (by rw [bayForm_eq, if_neg (by omega), if_pos (by omega)])
  · have form : bayForm f.body = .ok b := by rw [bayForm_eq, if_neg (by omega), if_neg (by omega)]
    have decides : exec .restoreBay s = .next (finish (restoreAct f b (s.took 0 1))) :=
      h.supervised_acts tag form restoreAct
    have answered (r : Record) (act : restoreAct f b (s.took 0 1) = reply 0 f r (s.took 0 1)) :
        exec .restoreBay s = .next (s.answer 0 f r) := by
      rw [decides, act, finish_reply_took h.settled h.presence]
    refine ⟨fun can => ?_, fun empty low => ?_, fun other => ?_⟩
    · let t := s.answer 0 f (.takenBay b .spinWait)
      have act : restoreAct f b (s.took 0 1) = enterSpinWait b t :=
        (if_pos can).trans (congrArg (enterSpinWait b) (reply_taken f _ h.presence))
      rw [decides, act, enterSpinWait_eq (s := t) (State.restorable.lt (s := s) can)]
      exact congrArg _ (finish_of_settled h.settled)
    · refine answered _ ?_
      simp [restoreAct, State.took, empty, low]
    · refine answered _ ?_
      rcases other with state | state | state | state | state <;> simp [restoreAct, State.took, state]

end Sys2Proof.Machine
end

section
/-! PROOFS. A drained bay stops and is RELEASED (O42). -/

namespace Sys2Proof.Machine

section
variable {s : State} {b : Nat}

/-- R122: a loan is placed on the bay when some slot holds an ACTIVE loan whose placed bay it is. -/
theorem State.anyPlacedOn_iff :
    s.anyPlacedOn b = true ↔ ∃ k l, s.loan k = some l ∧ l.state = .active ∧ l.placedBay = b := by
  have placed (l : Loan) : l.placedOn b = true ↔ l.state = .active ∧ l.placedBay = b := by simp [Loan.placedOn]
  have slot {k : Nat} (lt : k < s.loans.length) : s.loan k = s.loans[k].loan :=
    congrArg Slot.loan (List.getD_eq_getElem _ _ lt)
  rw [State.anyPlacedOn, List.any_eq_true]
  constructor
  · rintro ⟨x, mem, on⟩
    obtain ⟨k, lt, rfl⟩ := List.getElem_of_mem mem
    split at on
    · exact ⟨k, _, (slot lt).trans ‹_›, (placed _).mp on⟩
    · cases on
  · rintro ⟨k, l, loan, on⟩
    have lt := s.slot_lt_of_loan k l loan
    refine ⟨s.loans[k], List.getElem_mem lt, ?_⟩
    rw [(slot lt).symm.trans loan]
    exact (placed l).mpr on

/-- R138: the drain test of a DRAINING bay. -/
theorem State.drained_eq_true (draining : (s.bay b).state = .draining)
    (unplaced : ¬∃ k l, s.loan k = some l ∧ l.state = .active ∧ l.placedBay = b) (idle : (s.bay b).service = none)
    (unchosen : (s.bay b).chosen = none) : s.drained b = true := by
  have none : s.anyPlacedOn b = false := Bool.eq_false_iff.mpr (State.anyPlacedOn_iff.not.mpr unplaced)
  simp [State.drained, draining, none, idle, unchosen]

/-- R118, R139: a bay in STOPPING, its arbiter empty and its operation abandoned. -/
def Bay.stopping (x : Bay) : Bay :=
  { x.opOver.clearArbiter with state := .stopping, upkeepDue := false, upkeepTimer := none, service := none }

/-- R138, R139: a bay in STOPPING on which SPIN DOWN has been issued under profile `p`, after it had been drained. -/
def Bay.spinningDown (p : Profile) (x : Bay) : Bay :=
  { x with state := .stopping, upkeepDue := false, upkeepTimer := none, ring := [], deferral := 0, chunkWrite := none
           op := some .spinDown, opNumber := x.opNumber + 1, opTimer := 0, opLimit := p.spinLimit }

/-- Of a bay with nothing in service and no chosen unit, STOPPING clears neither. -/
theorem Bay.stopping_issued {x : Bay} (idle : x.service = none) (unchosen : x.chosen = none) (p : Profile) :
    x.stopping.issued p .spinDown = x.spinningDown p := by
  simp only [Bay.issued, Bay.stopping, Bay.opOver, Bay.clearArbiter, Bay.spinningDown, opLimitOf, idle, unchosen]

theorem enterStopping_eq (h : b < s.bays.length) (idle : (s.bay b).service = none) (unchosen : (s.bay b).chosen = none) :
    enterStopping b s = { s.modBay b (Bay.spinningDown (s.profile b)) with notices := s.bayNotice b } := by
  let u : State := { s with notices := s.bayNotice b }
  calc enterStopping b s
    _ = issueOp b .spinDown (u.modBay b Bay.stopping) := by rw [enterStopping, setBayState_modBay h]; rfl
    _ = u.modBay b fun x => x.stopping.issued (s.profile b) .spinDown := State.modBay_modBay (s := u) h _ _
    _ = u.modBay b (Bay.spinningDown (s.profile b)) :=
      State.modBay_congr (s := u) (Bay.stopping_issued (x := s.bay b) idle unchosen _)

/-- R139: a bay enters RELEASED. -/
theorem enterReleased_eq (h : b < s.bays.length) : enterReleased b s =
    { s.modBay b (fun x => { x with state := .released, faultCause := none, op := none, opTimer := 0, opLimit := 0 }) with
      notices := s.bayNotice b } := setBayState_modBay h _ _

end

/-- Settles O42: the drain test by what is placed on the bay (`State.anyPlacedOn_iff`), and the two ends of SPIN DOWN. -/
theorem drainStopsAndReleases : Obligations.DrainStopsAndReleases := by
  refine ⟨fun s b hb draining => ⟨fun unplaced idle unchosen => ?_, fun placed => ?_⟩, fun s b hb op => ⟨?_, fun late => ?_⟩⟩
  · have lt : b < s.bays.length := State.bay_lt_of_ne Bay.state (by rw [draining]; decide)
    have test := State.drained_eq_true draining (fun ⟨k, l, loan, on⟩ => unplaced k l loan on) idle unchosen
    show execDrainComplete b s = _
    rw [execDrainComplete, onBay_eq hb, drainTest, if_pos test, enterStopping_eq lt idle unchosen]
    rfl
  · have test : s.drained b = false := by simp [State.drained, State.anyPlacedOn_iff.mpr placed]
    show execDrainComplete b s = _
    rw [execDrainComplete, onBay_eq hb, drainTest, if_neg (Bool.eq_false_iff.mp test)]
  · have answers : s.answers b (s.bay b).opNumber isSpinDown = true := by simp [State.answers, op, isSpinDown]
    show execSpinDownDone b _ s = _
    rw [execSpinDownDone, onBay_eq hb, if_pos answers, enterReleased_eq (lt_of_op op)]
  · have expired : s.expired b isSpinDown = true := by simp [State.expired, op, isSpinDown, late]
    show execSpinDownTimeout b s = _
    rw [execSpinDownTimeout, onBay_eq hb, if_pos expired, enterReleased_eq (lt_of_op op)]

end Sys2Proof.Machine
end

section
/-! PROOFS. HALT COPY and COPY_END (O44). -/

namespace Sys2Proof.Machine

/-! ### The end of a copy (R157) -/

/-- The copy of channel `c` has ended with status `e`: its buffers are back, the channel and its record are free, and the COPY
notice says so (log entry 24). -/
def State.copyEnded (s : State) (c : Nat) (e : CopyEnd) : State :=
  { (s.setChannel c Channel.free).setTwin (s.channel c).twin none with
    poolFree := s.poolFree + (s.channel c).held
    notices := { s.notices with copy := { s.notices.copy with
      pending := true, count := min 255 (s.notices.copy.count + 1), subject := (s.channel c).twin, status := e.notice } } }

/-- A channel whose copy gets the end status `e`. -/
def Channel.ending (e : CopyEnd) (x : Channel) : Channel := { x with endStatus := some e }

/-- A queued chunk of channel `c`, copying for record `w`, has left the source's ring, and a pending one the target bay. -/
def State.chunkWithdrawn (s : State) (c : Nat) (w : Twin) : State :=
  if (s.channel c).phase = .queued then
    s.modBay w.source fun x => { x with ring := x.ring.filter (fun m => m.who != .channel c) }
  else if (s.channel c).phase = .pending then s.modBay w.target fun x => { x with chunkWrite := none }
  else s

section
variable {s : State} {c t : Nat} {w : Twin} {e : CopyEnd} {f : Frame}

theorem endCopy_eq (ends : (s.channel c).endStatus = some e) : endCopy c s = (s.copyEnded c e).oweScan := by
  simp only [endCopy, ends]
  refine congrArg State.oweScan ?_
  simp only [occur, giveBackChannel, State.copyEnded, State.setTwin, State.setChannel, State.modChannel, List.set_set]
  rfl

/-- With no wait entry the scan that the end of a copy owes grants nothing. -/
theorem finish_endCopy (ends : (s.channel c).endStatus = some e) (waits : s.waits = []) (settled : s.Settled) :
    finish (endCopy c s) = s.copyEnded c e := by
  rw [endCopy_eq ends]
  exact finish_oweScan waits settled

/-- COPY_END of a copy whose end is decided and that has no unit left. -/
theorem exec_copyEnd (hc : isChannel c = true) (busy : (s.channel c).busy = true) (ends : (s.channel c).endStatus = some e)
    (unitless : (s.channel c).phase = .none) : exec (.copyEnd c) s = .next (finish (endCopy c s)) := by
  have due : (s.channel c).busy ∧ (s.channel c).endStatus.isSome ∧ (s.channel c).phase = .none :=
    ⟨busy, by rw [ends]; rfl, unitless⟩
  show execCopyEnd c s = _
  simp only [execCopyEnd, hc, Bool.not_true, Bool.false_eq_true, if_false, if_pos due]

/-! ### An end is decided (R157, R158, log entry 22) -/

theorem State.channel_ending (hc : c < s.channels.length) :
    (s.modChannel c (Channel.ending e)).channel c = (s.channel c).ending e := State.channel_setChannel_self s c _ hc

/-- The end of a copy leaves nothing of its channel's end status. -/
theorem State.copyEnded_ending (hc : c < s.channels.length) :
    (s.modChannel c (Channel.ending e)).copyEnded c e = s.copyEnded c e := by
  simp only [State.copyEnded, State.channel_ending hc]
  simp only [State.setChannel, State.modChannel, List.set_set]
  rfl

/-- The withdrawal of a chunk changes no more than a bay. -/
theorem State.chunkWithdrawn_frame : ∃ bays, s.chunkWithdrawn c w = { s with bays := bays } := by
  unfold State.chunkWithdrawn
  split
  · exact ⟨_, rfl⟩
  · split <;> exact ⟨_, rfl⟩

theorem State.chunkWithdrawn_answer {l : Nat} {r : Record} :
    (s.answer l f r).chunkWithdrawn c w = (s.chunkWithdrawn c w).answer l f r := by
  unfold State.chunkWithdrawn
  rw [show ((s.answer l f r).channel c).phase = (s.channel c).phase from rfl]
  split
  · rfl
  · split <;> rfl

/-- The first end that is decided for a copy is its end status. -/
theorem State.modChannel_join (undecided : (s.channel c).endStatus = none) :
    s.modChannel c (fun x => { x with endStatus := some (CopyEnd.join x.endStatus e) }) =
      s.modChannel c (Channel.ending e) :=
  congrArg (s.setChannel c) (by simp only [undecided]; rfl)

/-- A chunk on a disk, or one that waits for its buffers, runs on. -/
theorem decideCopyEnd_runsOn (twin : s.twin t = some w) (names : w.channel = some c) (hc : c < s.channels.length)
    (undecided : (s.channel c).endStatus = none)
    (chosen : (s.channel c).phase = .chosen ∨ (s.channel c).phase = .reading ∨ (s.channel c).phase = .writing) :
    decideCopyEnd t e s = s.modChannel c (Channel.ending e) := by
  simp only [decideCopyEnd, twin, names, State.modChannel_join undecided, State.channel_ending hc, Channel.ending]
  rcases chosen with phase | phase | phase <;> rw [phase]

/-- With no unit, or one that no disk has begun, the copy ends at once, its chunk withdrawn. -/
theorem decideCopyEnd_ends (twin : s.twin t = some w) (names : w.channel = some c) (hc : c < s.channels.length)
    (undecided : (s.channel c).endStatus = none)
    (unbegun : (s.channel c).phase = .none ∨ (s.channel c).phase = .queued ∨ (s.channel c).phase = .pending) :
    decideCopyEnd t e s = endCopy c ((s.chunkWithdrawn c w).modChannel c (Channel.ending e)) := by
  simp only [decideCopyEnd, twin, names, State.modChannel_join undecided, State.channel_ending hc, State.chunkWithdrawn]
  rcases unbegun with phase | phase | phase <;> simp only [Channel.ending, phase] <;> rfl

/-! ### HALT COPY (R158) -/

theorem twinForm_eq (body : List Byte) : twinForm body =
    if body.length < 1 then .error (rejectLength body 1)
    else if ¬ field body 0 1 < 6 then .error (rejectField 0)
    else .ok (field body 0 1) := by
  simp only [twinForm, atLeast_bind, demand_bind, decide_eq_true_eq]
  rfl

/-- A halt changes nothing of a copy whose end is decided already. -/
theorem haltTwin_decided (names : w.channel = some c) (decided : (s.channel c).endStatus ≠ none) : haltTwin t w s = s := by
  simp only [haltTwin, names]
  exact if_pos (Option.isSome_iff_ne_none.mpr decided)

theorem haltTwin_undecided (names : w.channel = some c) (undecided : (s.channel c).endStatus = none) :
    haltTwin t w s = decideCopyEnd t .halted s := by
  simp [haltTwin, names, undecided]

theorem haltAct_free (empty : s.twin t = none) : haltAct f t s = reply 0 f (.refusedSup .noRecord) s := by
  simp only [haltAct, empty]

theorem haltAct_notCopying (twin : s.twin t = some w) (other : w.state ≠ .copying) :
    haltAct f t s = reply 0 f (.refusedSup .notCopying) s := by
  simp only [haltAct, twin, other, if_false]

theorem haltAct_copying (twin : s.twin t = some w) (copying : w.state = .copying) :
    haltAct f t s = haltTwin t w (reply 0 f (.takenTwin t .halting) s) := by
  simp only [haltAct, twin, copying, if_true]

/-- A halt that ends the copy at once, with no wait entry. -/
theorem finish_haltTwin_ends (twin : s.twin t = some w) (names : w.channel = some c) (hc : c < s.channels.length)
    (undecided : (s.channel c).endStatus = none) (waits : s.waits = []) (settled : s.Settled)
    (unbegun : (s.channel c).phase = .none ∨ (s.channel c).phase = .queued ∨ (s.channel c).phase = .pending) :
    finish (haltTwin t w s) = (s.chunkWithdrawn c w).copyEnded c .halted := by
  obtain ⟨bays, frame⟩ := State.chunkWithdrawn_frame (s := s) (c := c) (w := w)
  have size : c < (s.chunkWithdrawn c w).channels.length := by rwa [frame]
  have ends : (((s.chunkWithdrawn c w).modChannel c (Channel.ending .halted)).channel c).endStatus = some .halted := by
    rw [State.channel_ending size]
    rfl
  have waits : (s.chunkWithdrawn c w).waits = [] := by rwa [frame]
  have settled : (s.chunkWithdrawn c w).Settled := by rwa [frame]
  rw [haltTwin_undecided names undecided, decideCopyEnd_ends twin names hc undecided unbegun,
    finish_endCopy ends waits settled, State.copyEnded_ending size]

/-- HALT COPY of twin number `t`, which the part has. -/
theorem exec_haltCopy (h : s.CanTake 0 kindHaltCopy 1 f) (tag : f.tag ≠ 0) (long : 1 ≤ f.body.length)
    (reads : field f.body 0 1 = t) (inside : t < 6) :
    exec .haltCopy s = .next (finish (haltAct f t (s.took 0 1))) := by
  refine h.supervised_acts tag ?_ haltAct
  rw [twinForm_eq, if_neg long.not_gt, reads, if_neg (not_not_intro inside)]

/-- HALT COPY of a COPYING record is answered, and the halt decided. -/
theorem exec_haltCopy_copying (h : s.CanTake 0 kindHaltCopy 1 f) (tag : f.tag ≠ 0) (long : 1 ≤ f.body.length)
    (reads : field f.body 0 1 = t) (inside : t < 6) (twin : s.twin t = some w) (copying : w.state = .copying) :
    exec .haltCopy s = .next (finish (haltTwin t w (s.answer 0 f (.takenTwin t .halting)))) := by
  have replied : reply 0 f (.takenTwin t .halting) (s.took 0 1) = s.answer 0 f (.takenTwin t .halting) :=
    reply_taken f _ h.presence
  rw [exec_haltCopy h tag long reads inside, haltAct_copying (s := s.took 0 1) twin copying, replied]

end

/-- Settles O44: HALT COPY of a COPYING record (`exec_haltCopy_copying`) changes nothing, decides the end of a chunk that runs
on (`decideCopyEnd_runsOn`) or ends the copy (`finish_haltTwin_ends`), as COPY_END does (`finish_endCopy`). -/
theorem haltCopyAndCopyEnd : Obligations.HaltCopyAndCopyEnd := by
  constructor
  · intro s f h tag long t
    refine ⟨fun out => ?_, fun inside empty => ?_, fun w inside twin other => ?_,
      fun w c inside twin copying names hc => ?_⟩
    · refine h.supervised_rejects tag (r := rejectField 0) ?_ haltAct
      rw [twinForm_eq, if_neg long.not_gt, if_pos out.not_gt]
    · rw [exec_haltCopy h tag long rfl inside, haltAct_free (s := s.took 0 1) empty, finish_reply_took h.settled h.presence]
    · rw [exec_haltCopy h tag long rfl inside, haltAct_notCopying (s := s.took 0 1) twin other,
        finish_reply_took h.settled h.presence]
    · let v := s.answer 0 f (.takenTwin t .halting)
      rw [exec_haltCopy_copying h tag long rfl inside twin copying]
      refine ⟨fun decided => ?_, fun undecided chosen => ?_, fun undecided named waits unbegun => ?_⟩
      · rw [haltTwin_decided (s := v) names decided, finish_answer h.settled]
      · rw [haltTwin_undecided (s := v) names undecided, decideCopyEnd_runsOn (s := v) twin names hc undecided chosen]
        exact congrArg _ (finish_of_settled (s := v.modChannel c _) h.settled)
      · intro u
        obtain ⟨bays, frame⟩ := State.chunkWithdrawn_frame (s := s) (c := c) (w := w)
        have withdrawn : u = { s with bays := bays } := frame
        rw [finish_haltTwin_ends (s := v) twin names hc undecided waits h.settled unbegun, State.chunkWithdrawn_answer, frame,
          withdrawn, ← named]
        rfl
  · intro s c e settled hc busy ends unitless waits
    rw [exec_copyEnd hc busy ends unitless, finish_endCopy ends waits settled]
    cases e <;> rfl

end Sys2Proof.Machine
end

section
/-! PROOFS. Frames as they arrive, and frames that are discarded or rejected (O2, O3). -/

namespace Sys2Proof.Machine

/-! ### Big-endian pairs (00_scope.md 4.1) -/

theorem toNat_byte (n : Nat) : (byte n).toNat = n % 256 := BitVec.toNat_ofNat n 8

theorem ofBytes_single (b : Byte) : ofBytes [b] = b.toNat := by simp [ofBytes]

theorem ofBytes_pair (high low : Byte) : ofBytes [high, low] = high.toNat * 256 + low.toNat := by simp [ofBytes]

theorem ofBytes_be16 {n : Nat} (h : n < 65536) : ofBytes (be16 n) = n := by
  rw [be16, ofBytes_pair, toNat_byte, toNat_byte]
  omega

theorem be16_ofBytes (high low : Byte) : be16 (ofBytes [high, low]) = [high, low] := by
  have := high.isLt
  have := low.isLt
  have upper : byte (ofBytes [high, low] / 256) = high := BitVec.eq_of_toNat_eq (by rw [toNat_byte, ofBytes_pair]; omega)
  have lower : byte (ofBytes [high, low]) = low := BitVec.eq_of_toNat_eq (by rw [toNat_byte, ofBytes_pair]; omega)
  rw [be16, upper, lower]

theorem crc16_lt (bs : List Byte) : crc16 bs < 65536 := BitVec.isLt _

/-- Two bytes are a frame's CHECK exactly when they are the computed value's bytes (R169). -/
theorem ofBytes_eq_crc16_iff {check : List Byte} (size : check.length = 2) (bs : List Byte) :
    crc16 bs = ofBytes check ↔ check = be16 (crc16 bs) := by
  obtain ⟨high, low, rfl⟩ := List.length_eq_two.mp size
  constructor
  · intro same
    rw [same, be16_ofBytes]
  · intro same
    rw [same, ofBytes_be16 (crc16_lt bs)]

/-! ### The receiver (R169) -/

theorem receiveBytes_append (r : Receiver) (xs ys : List Byte) : receiveBytes r (xs ++ ys) =
    ((receiveBytes (receiveBytes r xs).1 ys).1, (receiveBytes r xs).2 ++ (receiveBytes (receiveBytes r xs).1 ys).2) := by
  induction xs generalizing r with
  | nil => rfl
  | cons x xs ih => simp only [List.cons_append, receiveBytes, ih, List.append_assoc]

/-- A receiver that hunts passes above every byte but SYNC. -/
theorem receiveBytes_noise {noise : List Byte} (h : 0xA5#8 ∉ noise) : receiveBytes .hunting noise = (.hunting, []) := by
  induction noise with
  | nil => rfl
  | cons b noise ih =>
    rw [List.mem_cons, not_or] at h
    obtain ⟨other, rest⟩ := h
    simp [receiveBytes, receiveByte, Ne.symm other, ih rest]

/-- SYNC begins a frame. -/
theorem receiveBytes_sync (bs : List Byte) : receiveBytes .hunting (0xA5#8 :: bs) = receiveBytes (.inFrame []) bs := rfl

/-- The bytes after SYNC that leave the receiver in the frame: LENGTH is not yet read whole, or it is at most 4104 and CHECK is
not yet read whole. -/
def insideFrame (bs : List Byte) : Prop :=
  bs.length < 2 ∨ ofBytes (bs.take 2) ≤ Config.bodyMax ∧ bs.length < ofBytes (bs.take 2) + 6

theorem insideFrame_of_append {xs ys : List Byte} (h : insideFrame (xs ++ ys)) : insideFrame xs := by
  by_cases short : xs.length < 2
  · exact .inl short
  · have pair : (xs ++ ys).take 2 = xs.take 2 := List.take_append_of_le_length (by omega)
    rw [insideFrame, pair, List.length_append] at h
    rcases h with h | ⟨bound, h⟩
    · omega
    · exact .inr ⟨bound, by omega⟩

theorem receiveByte_insideFrame {xs : List Byte} {b : Byte} (h : insideFrame (xs ++ [b])) :
    receiveByte (.inFrame xs.reverse) b = (.inFrame (xs ++ [b]).reverse, none) := by
  have read : (b :: xs.reverse).reverse = xs ++ [b] := by simp
  have kept : (xs ++ [b]).reverse = b :: xs.reverse := by simp
  rw [kept]
  unfold receiveByte
  simp only [read]
  rcases h with short | ⟨bound, more⟩
  · rw [if_pos short]
  · rw [if_neg (Nat.not_lt.mpr bound), if_pos more, ite_self]

/-- The bytes of a frame that is not read whole stay with the receiver. -/
theorem receiveBytes_insideFrame {bs : List Byte} (h : insideFrame bs) :
    receiveBytes (.inFrame []) bs = (.inFrame bs.reverse, []) := by
  induction bs using List.reverseRecOn with
  | nil => rfl
  | append_singleton xs b ih =>
    rw [receiveBytes_append, ih (insideFrame_of_append h)]
    simp only [receiveBytes, receiveByte_insideFrame h]
    rfl

/-- The bytes that a frame's CHECK is computed above: LENGTH, KIND, TAG and BODY (Table 9-1). -/
def frameInner (kind tag : Byte) (body : List Byte) : List Byte := be16 body.length ++ [kind, tag] ++ body

theorem frameBytes_eq (kind tag : Nat) (body : List Byte) : frameBytes kind tag body =
    0xA5#8 :: (frameInner (byte kind) (byte tag) body ++ be16 (crc16 (frameInner (byte kind) (byte tag) body))) := rfl

/-- The frame's last byte: the frame arrives when CHECK is the computed value, and is discarded when not. -/
theorem receiveByte_last {kind tag high low : Byte} {body : List Byte} (bound : body.length ≤ Config.bodyMax) :
    receiveByte (.inFrame (frameInner kind tag body ++ [high]).reverse) low = (.hunting,
      if crc16 (frameInner kind tag body) = ofBytes [high, low] then
        some { kind := kind.toNat, tag := tag.toNat, body := body } else none) := by
  have read : (low :: (frameInner kind tag body ++ [high]).reverse).reverse = frameInner kind tag body ++ [high, low] := by simp
  have size : (frameInner kind tag body).length = body.length + 4 := by simp [frameInner, be16]
  have length : ofBytes ((frameInner kind tag body ++ [high, low]).take 2) = body.length :=
    ofBytes_be16 (lt_of_le_of_lt bound (by decide))
  have inner : (frameInner kind tag body ++ [high, low]).take (body.length + 4) = frameInner kind tag body := by
    rw [← size, List.take_left]
  have check : (frameInner kind tag body ++ [high, low]).drop (body.length + 4) = [high, low] := by
    rw [← size, List.drop_left]
  have content : ((frameInner kind tag body ++ [high, low]).drop 4).take body.length = body :=
    List.take_left' (l₁ := body) rfl
  have kindByte : ((frameInner kind tag body ++ [high, low]).drop 2).take 1 = [kind] := rfl
  have tagByte : ((frameInner kind tag body ++ [high, low]).drop 3).take 1 = [tag] := rfl
  have whole : (frameInner kind tag body ++ [high, low]).length = body.length + 6 := by simp [size]
  unfold receiveByte
  simp only [read, length, inner, check, content, kindByte, tagByte, whole, ofBytes_single]
  rw [if_neg (by omega), if_neg (Nat.not_lt.mpr bound), if_neg (lt_irrefl _)]
  split <;> rfl

/-- The receiver that hunts, sent a frame's bytes with some CHECK after bytes that are not SYNC: it hunts again, and the frame
arrives exactly when its CHECK is the computed value. -/
theorem receiveBytes_frame {noise body check : List Byte} (kind tag : Byte) (quiet : 0xA5#8 ∉ noise)
    (bound : body.length ≤ Config.bodyMax) (size : check.length = 2) :
    receiveBytes .hunting (noise ++ 0xA5#8 :: (frameInner kind tag body ++ check)) = (.hunting,
      if check = be16 (crc16 (frameInner kind tag body)) then [{ kind := kind.toNat, tag := tag.toNat, body := body }]
      else []) := by
  obtain ⟨high, low, rfl⟩ := List.length_eq_two.mp size
  have inside : insideFrame (frameInner kind tag body ++ [high]) := by
    have length : ofBytes ((frameInner kind tag body ++ [high]).take 2) = body.length :=
      ofBytes_be16 (lt_of_le_of_lt bound (by decide))
    refine .inr ⟨length ▸ bound, ?_⟩
    rw [length]
    simp [frameInner, be16]
  have parts : frameInner kind tag body ++ [high, low] = (frameInner kind tag body ++ [high]) ++ [low] := by simp
  rw [receiveBytes_append, receiveBytes_noise quiet, receiveBytes_sync, parts, receiveBytes_append,
    receiveBytes_insideFrame inside]
  simp only [receiveBytes, receiveByte_last bound, ofBytes_eq_crc16_iff size]
  split <;> rfl

/-- A LENGTH above 4104 after SYNC leaves the receiver hunting. -/
theorem receiveBytes_overlong {length : Nat} (above : Config.bodyMax < length) (fits : length ≤ 65535) :
    receiveBytes (.inFrame []) (be16 length) = (.hunting, []) := by
  have read : ofBytes [byte (length / 256), byte length] = length := ofBytes_be16 (Nat.lt_succ_of_le fits)
  simp [be16, receiveBytes, receiveByte, read, above]

/-! ### The link (R169, R170, R174) -/

theorem onLink_eq {l : Nat} (hl : isLink l = true) (act : State → Result) (s : State) : onLink l act s = act s := if_pos hl

section
variable {s : State} {l : Nat}

/-- What received bytes make of a link whose presence is high: the frames that arrive enter the queue in their order. -/
theorem Link.receive_eq {x : Link} {bytes : List Byte} {r : Receiver} {frames : List Frame} (high : x.presence = true)
    (received : receiveBytes x.receiver bytes = (r, frames)) :
    x.receive bytes = frames.foldl Link.enter { x with receiver := r } := by
  rw [Link.receive, if_pos high, received]

/-- Bytes that leave a hunting receiver hunting: the frames that arrive with them enter the queue, and nothing else changes. -/
theorem exec_frameArrive {bytes : List Byte} {frames : List Frame} (hl : isLink l = true) (high : (s.link l).presence = true)
    (hunting : (s.link l).receiver = .hunting) (received : receiveBytes .hunting bytes = (.hunting, frames)) :
    exec (.frameArrive l bytes) s = .next (s.setLink l (frames.foldl Link.enter (s.link l))) := by
  rw [← hunting] at received
  show execFrameArrive l bytes s = _
  rw [execFrameArrive, onLink_eq hl, State.modLink, Link.receive_eq high received]

theorem exec_overlongFrameDiscard {length : Nat} (hl : isLink l = true) (above : Config.bodyMax < length)
    (fits : length ≤ 65535) : exec (.overlongFrameDiscard l length) s =
      .next (s.setLink l ((s.link l).receive ((s.link l).receiver.untilLength length))) := by
  show execOverlongFrameDiscard l length s = _
  rw [execOverlongFrameDiscard, onLink_eq hl, if_pos ⟨above, fits⟩]
  rfl

theorem exec_unknownKindFrame {f : Frame} (hl : isLink l = true) (h : s.CanTake l f.kind 1 f)
    (unknown : kindTakenOn l f.kind = false) :
    exec (.unknownKindFrame l) s = .next (finish (reject l f rejectKind (s.took l 1))) := by
  obtain ⟨rest, queue⟩ := List.head?_eq_some_iff.mp h.head
  show execUnknownKindFrame l s = _
  rw [execUnknownKindFrame, onLink_eq hl, queue]
  simp only [unknown, Bool.false_eq_true, if_false]
  exact State.CanTake.taking (needs := oneEntry) h _

end

/-- Settles O2: the frame's CHECK is the computed value, so that the frame arrives (`receiveBytes_frame`). -/
theorem frameArrives : Obligations.FrameArrives := by
  intro s l kind tag noise body hl hkind htag bound high hunting quiet
  have received := receiveBytes_frame (check := be16 (crc16 (frameInner (byte kind) (byte tag) body))) (byte kind) (byte tag)
    quiet bound rfl
  rw [if_pos rfl, toNat_byte, toNat_byte, Nat.mod_eq_of_lt hkind, Nat.mod_eq_of_lt htag] at received
  rw [frameBytes_eq]
  exact exec_frameArrive hl high hunting received

/-- Settles O3: a frame whose CHECK is not the computed value does not arrive (`receiveBytes_frame`); a LENGTH above 4104 is given
up (`receiveBytes_overlong`); a frame of an unknown kind is taken and rejected (`exec_unknownKindFrame`). -/
theorem badFramesRejected : Obligations.BadFramesRejected := by
  refine ⟨?_, ?_, ?_⟩
  · intro s l kind tag noise body check hl bound high hunting quiet size wrong
    have received := (receiveBytes_frame kind tag quiet bound size).trans (congrArg _ (if_neg wrong))
    exact (exec_frameArrive hl high hunting received).trans (congrArg _ (State.setLink_same s l))
  · intro s l length hl above fits high stands
    have received : receiveBytes (s.link l).receiver ((s.link l).receiver.untilLength length) = (.hunting, []) := by
      rcases stands with hunting | begun
      · rw [hunting]
        exact (receiveBytes_sync _).trans (receiveBytes_overlong above fits)
      · rw [begun]
        exact receiveBytes_overlong above fits
    rw [exec_overlongFrameDiscard hl above fits, Link.receive_eq high received]
    rfl
  · intro s l f hl h unknown
    rw [exec_unknownKindFrame hl h unknown, reject, finish_reply_took h.settled h.presence]
    rfl

end Sys2Proof.Machine
end

section
/-! PROOFS. Presence falls on a node link (O5). -/

namespace Sys2Proof.Machine

/-! ### The link whose presence is low -/

/-- Nothing is placed on a link whose presence is low (R175). -/
theorem place_link_absent {s : State} {n : Nat} (low : (s.link n).presence = false) (l : Nat) (o : OutRecord) :
    (place l o s).link n = s.link n := by
  unfold place
  split
  · rename_i room
    refine State.link_setLink_ne _ _ _ _ fun same => ?_
    simp [State.hasRoom, same, low] at room
  · rfl

theorem placeReserved_link_absent {s : State} {n : Nat} (low : (s.link n).presence = false) (l : Nat) (o : OutRecord) :
    (placeReserved l o s).link n = s.link n := by
  unfold placeReserved
  split
  · rename_i reserved
    refine State.link_setLink_ne _ _ _ _ fun same => ?_
    simp [same, low] at reserved
  · rfl

theorem giveBack_links (ref : CommandRef) (n : Nat) (s : State) : (giveBack ref n s).links = s.links := by
  unfold giveBack
  split <;> rfl

theorem EndMove.link_absent {s t : State} {n : Nat} (m : EndMove s t) (low : (s.link n).presence = false) :
    t.link n = s.link n := by
  cases m with
  | place l o => exact place_link_absent low l o
  | placeReserved l o => exact placeReserved_link_absent low l o
  | giveBack ref k => rw [State.link, giveBack_links, State.link]
  | _ => rfl

/-- No end of a loan, grant or departure from the wait list touches a link whose presence is low. -/
theorem GrantChain.link_absent {s t : State} {n : Nat} (c : GrantChain s t) (low : (s.link n).presence = false) :
    t.link n = s.link n := by
  induction c with
  | refl => rfl
  | tail _ m ih =>
    refine .trans ?_ ih
    cases m with
    | ends m => exact m.link_absent (ih ▸ low)
    | _ => rfl

theorem GrantChain.poolWait {s t : State} (c : GrantChain s t) : t.poolWait = s.poolWait := by
  induction c with
  | refl => rfl
  | tail _ m ih =>
    refine .trans ?_ ih
    cases m with
    | ends m => exact m.frame.poolWait
    | _ => rfl

/-! ### What the ends of loans make of a loan (R14, R15, R17) -/

/-- A loan record after some ends: it is the same node's, one whose end is decided is not ACTIVE again, and one that ended
LINK_LOST keeps that reason. -/
structure Loan.later (l m : Loan) : Prop where
  borrower : m.borrower = l.borrower
  decided  : l.state ≠ .active → m.state ≠ .active
  lost     : l.state ≠ .active → l.endReason = some .linkLost → m.endReason = some .linkLost

theorem Loan.later.refl (l : Loan) : l.later l := ⟨rfl, id, fun _ => id⟩

theorem Loan.later.trans {l m o : Loan} (a : l.later m) (b : m.later o) : l.later o :=
  ⟨b.borrower.trans a.borrower, fun h => b.decided (a.decided h), fun h r => b.lost (a.decided h) (a.lost h r)⟩

/-- Every loan of the state after is a later stage of the loan in its slot before: slots are freed, and none is filled. -/
def Ages (s t : State) : Prop := ∀ k m, t.loan k = some m → ∃ l, s.loan k = some l ∧ l.later m

theorem Ages.refl (s : State) : Ages s s := fun _ m h => ⟨m, h, .refl m⟩

theorem Ages.trans {s t u : State} (a : Ages s t) (b : Ages t u) : Ages s u := fun k m h => by
  obtain ⟨l, hl, lm⟩ := b k m h
  obtain ⟨i, hi, il⟩ := a k l hl
  exact ⟨i, hi, il.trans lm⟩

theorem Ages.of_loans {s t : State} (e : t.loans = s.loans) : Ages s t := fun k m h => by
  rw [State.loan, State.slot, e] at h
  exact ⟨m, h, .refl m⟩

/-- After a change of other parts of the state. -/
theorem Ages.after {s u t : State} (h : Ages u t) (e : u.loans = s.loans) : Ages s t := (of_loans e).trans h

/-- Before a change of other parts of the state. -/
theorem Ages.before {s u t : State} (h : Ages s u) (e : t.loans = u.loans) : Ages s t := h.trans (of_loans e)

theorem Ages.ite {c : Prop} [Decidable c] {s t u : State} (ht : Ages s t) (hu : Ages s u) : Ages s (if c then t else u) := by
  split
  · exact ht
  · exact hu

theorem foldl_ages {α : Type} (g : State → α → State) (h : ∀ s a, Ages s (g s a)) (as : List α) (s : State) :
    Ages s (as.foldl g s) := by
  induction as generalizing s with
  | nil => exact .refl s
  | cons a as ih => exact (h s a).trans (ih _)

theorem eachSlot_ages (g : Nat → State → State) (h : ∀ k s, Ages s (g k s)) (s : State) : Ages s (s.eachSlot g) :=
  foldl_ages _ (fun s k => h k s) _ s

/-- A loan read after one slot has been set is the one set there, or the one that stood in its own slot. -/
theorem State.loan_setSlot_cases {s : State} {k j : Nat} {x : Slot} {m : Loan} (h : (s.setSlot k x).loan j = some m) :
    (j = k ∧ x.loan = some m) ∨ s.loan j = some m := by
  by_cases same : k = j
  · subst same
    by_cases inside : k < s.loans.length
    · rw [State.loan, State.slot_setSlot_self s k x inside] at h
      exact .inl ⟨rfl, h⟩
    · rw [State.setSlot, List.set_eq_of_length_le (Nat.le_of_not_lt inside)] at h
      exact .inr h
  · rw [State.loan, State.slot_setSlot_ne s k j x same] at h
    exact .inr h

theorem setSlot_ages {s : State} {k : Nat} {x : Slot} (h : ∀ m, x.loan = some m → ∃ l, s.loan k = some l ∧ l.later m) :
    Ages s (s.setSlot k x) := fun j m hm => by
  rcases State.loan_setSlot_cases hm with ⟨rfl, hx⟩ | same
  · exact h m hx
  · exact ⟨m, same, .refl m⟩

theorem setLoan_ages {s : State} {k : Nat} {l m : Loan} (h : s.loan k = some l) (later : l.later m) : Ages s (s.setLoan k m) :=
  setSlot_ages fun _ hm => ⟨l, h, Option.some.inj hm ▸ later⟩

theorem place_ages (l : Nat) (o : OutRecord) (s : State) : Ages s (place l o s) := .ite (.of_loans rfl) (.refl s)

theorem placeReserved_ages (l : Nat) (o : OutRecord) (s : State) : Ages s (placeReserved l o s) :=
  .ite (.of_loans rfl) (.refl s)

theorem giveBack_loans (ref : CommandRef) (n : Nat) (s : State) : (giveBack ref n s).loans = s.loans := by
  unfold giveBack
  split <;> rfl

theorem freeTwinIfUnnamed_loans (t : Nat) (s : State) : (freeTwinIfUnnamed t s).loans = s.loans := by
  unfold freeTwinIfUnnamed
  split
  · split <;> rfl
  · rfl

theorem freeSlot_ages (k : Nat) (s : State) : Ages s (freeSlot k s) := by
  have emptied : Ages s (s.setSlot k { s.slot k with loan := none }).oweScan :=
    (setSlot_ages fun _ hm => by cases hm).before rfl
  unfold freeSlot
  split
  · exact .refl s
  · dsimp only
    split
    · exact emptied.before (freeTwinIfUnnamed_loans _ _)
    · exact emptied

theorem placeLoanNotice_ages (k : Nat) (s : State) : Ages s (placeLoanNotice k s) := by
  unfold placeLoanNotice
  split
  · exact .refl s
  · rename_i l h
    dsimp only
    split
    · exact (place_ages _ _ s).trans (freeSlot_ages k _)
    · refine (place_ages _ _ s).trans (setLoan_ages ((loan_place _ _ s k).trans h) ?_)
      exact ⟨rfl, id, fun _ => id⟩
    · exact .refl s

theorem offerLoanNotices_ages (n : Nat) (s : State) : Ages s (offerLoanNotices n s) :=
  eachSlot_ages _ (fun k s => .ite (placeLoanNotice_ages k s) (.refl s)) s

theorem enterEnded_ages (k : Nat) (s : State) : Ages s (enterEnded k s) := by
  unfold enterEnded
  split
  · exact .refl s
  · rename_i l h
    refine .ite (freeSlot_ages k s) ?_
    dsimp only
    split
    · refine ((placeReserved_ages _ _ s).trans (setLoan_ages ((loan_placeReserved _ _ s k).trans h) ?_)).trans
        (freeSlot_ages k _)
      exact ⟨rfl, fun _ => by simp, fun _ => id⟩
    · refine (setLoan_ages h ?_).trans (offerLoanNotices_ages _ _)
      exact ⟨rfl, fun _ => by simp, fun _ => id⟩

theorem endIfIdle_ages (k : Nat) (s : State) : Ages s (endIfIdle k s) := by
  unfold endIfIdle
  split
  · exact .ite (enterEnded_ages k s) (.refl s)
  · exact .refl s

theorem freeRecord_ages (ref : CommandRef) (s : State) : Ages s (freeRecord ref s) := by
  unfold freeRecord
  split
  · exact .refl s
  · dsimp only
    split
    · exact .of_loans (giveBack_loans ref _ s)
    · rename_i l h
      refine (Ages.of_loans (giveBack_loans ref _ s)).trans (.trans (.trans (.of_loans rfl) (setLoan_ages h ?_))
        (endIfIdle_ages _ _))
      exact ⟨rfl, id, fun _ => id⟩

theorem freeIfDone_ages (ref : CommandRef) (s : State) : Ages s (freeIfDone ref s) := by
  unfold freeIfDone
  split
  · exact .ite (freeRecord_ages ref s) (.refl s)
  · exact .refl s

theorem finalReply_ages (ref : CommandRef) (out : Record) (s : State) : Ages s (finalReply ref out s) := by
  unfold finalReply
  split
  · exact .refl s
  · exact (Ages.ite (.refl s) (placeReserved_ages _ _ s)).before rfl

theorem endDone_ages (ref : CommandRef) (st : Status) (blocks : Nat) (s : State) : Ages s (endDone ref st blocks s) :=
  (finalReply_ages _ _ s).trans (freeRecord_ages _ _)

theorem endStream_ages (ref : CommandRef) (st : Status) (s : State) : Ages s (endStream ref st s) := by
  unfold endStream
  split
  · exact .refl s
  · exact (finalReply_ages _ _ s).trans ((freeIfDone_ages _ _).after rfl)

theorem endWork_ages (bay : Nat) (reason : EndReason) (first : Bool) (ref : CommandRef) (s : State) :
    Ages s (endWork bay reason first ref s) := by
  have dropped : Ages s (ringDrop bay ref s) := .of_loans rfl
  have marked (f : Command → Command) : Ages s (s.modRecord ref f) := .of_loans rfl
  unfold endWork
  split
  · exact .refl s
  · dsimp only
    split
    · exact dropped.trans (endStream_ages _ _ _)
    · exact dropped.trans (endDone_ages _ _ _ _)
    · exact endDone_ages _ _ _ _
    · exact .ite (.ite (freeRecord_ages _ _) (.refl s)) (.ite (freeRecord_ages _ _) (marked _))
    · exact .ite (marked _) (.ite (freeRecord_ages _ _) (.refl s))

/-- The end event reaches the command records of a loan, whose record has been changed. -/
theorem endWorks_ages (k bay : Nat) (reason : EndReason) (first : Bool) (refs : List CommandRef) (x : Loan) (s : State) :
    Ages (s.setLoan k x) (refs.foldl (fun s ref => endWork bay reason first ref s) (s.setLoan k x).oweScan) :=
  (foldl_ages _ (fun s ref => endWork_ages bay reason first ref s) _ _).after rfl

theorem decideEnd_ages (k : Nat) (reason : EndReason) (s : State) : Ages s (decideEnd k reason s) := by
  unfold decideEnd
  split
  · exact .refl s
  · rename_i l h
    split
    · rename_i active
      refine ((setLoan_ages h ?_).trans (endWorks_ages _ _ _ _ _ _ s)).trans (endIfIdle_ages _ _)
      exact ⟨by split <;> rfl, fun other => absurd active other, fun other => absurd active other⟩
    · refine .ite ?_ (.refl s)
      refine .trans (setLoan_ages h ?_) ((endWorks_ages _ _ _ _ _ _ s).trans (.ite (freeSlot_ages _ _) (endIfIdle_ages _ _)))
      exact ⟨rfl, id, fun _ _ => rfl⟩

theorem recomputeAgainst_ages (e : WaitEntry) (s : State) : Ages s (recomputeAgainst e s) := by
  refine .ite (.refl s) (eachSlot_ages _ (fun k s => ?_) s)
  split
  · refine .ite ?_ (.refl s)
    unfold recompute
    split
    · exact .refl s
    · rename_i l h
      have limited : Ages s (s.setLoan k { l with holdLimit := s.holdLimit l }) := setLoan_ages h ⟨rfl, id, fun _ => id⟩
      exact .ite (limited.trans (decideEnd_ages _ _ _)) limited
  · exact .refl s

theorem refuseEntry_ages (e : WaitEntry) (reason : NodeReason) (s : State) : Ages s (refuseEntry e reason s) :=
  ((placeReserved_ages _ _ s).trans (recomputeAgainst_ages e _)).before rfl

/-! ### A node's loans end LINK_LOST (R15, R17) -/

/-- A loan of node `n` has ended LINK_LOST. -/
def Loan.lostTo (n : Nat) (l : Loan) : Prop := l.borrower = n → l.state ≠ .active ∧ l.endReason = some .linkLost

/-- The loan in slot `k`, if it is node `n`'s, has ended LINK_LOST. -/
def State.lostAt (s : State) (n k : Nat) : Prop := ∀ l, s.loan k = some l → l.lostTo n

theorem Ages.lostAt {s t : State} {n k : Nat} (a : Ages s t) (h : s.lostAt n k) : t.lostAt n k := fun m hm own => by
  obtain ⟨l, hl, later⟩ := a k m hm
  obtain ⟨decided, lost⟩ := h l hl (later.borrower.symm.trans own)
  exact ⟨later.decided decided, later.lost decided lost⟩

/-- The end LINK_LOST, decided for the loan in slot `k`, sets its reason; what follows ends other loans and work. -/
theorem decideEnd_linkLost {s : State} {k : Nat} {l : Loan} (h : s.loan k = some l) :
    ∃ x : Loan, x.state ≠ .active ∧ x.endReason = some .linkLost ∧ Ages (s.setLoan k x) (decideEnd k .linkLost s) := by
  simp only [decideEnd, h, if_true]
  split
  · exact ⟨_, by simp, rfl, (endWorks_ages _ _ _ _ _ _ s).trans (endIfIdle_ages _ _)⟩
  · rename_i other
    exact ⟨{ l with endReason := some .linkLost, returnTag := none, notice := none }, other, rfl,
      (endWorks_ages _ _ _ _ _ _ s).trans (.ite (freeSlot_ages _ _) (endIfIdle_ages _ _))⟩

theorem decideEnd_lostAt (n k : Nat) (s : State) : (decideEnd k .linkLost s).lostAt n k := by
  cases h : s.loan k with
  | none =>
    intro m hm
    obtain ⟨l, hl, -⟩ := decideEnd_ages k .linkLost s k m hm
    cases h.symm.trans hl
  | some l =>
    obtain ⟨x, decided, lost, ages⟩ := decideEnd_linkLost h
    refine ages.lostAt fun y hy _ => ?_
    cases (State.loan_setLoan_self x (s.slot_lt_of_loan k l h)).symm.trans hy
    exact ⟨decided, lost⟩

/-- R175 step 5, for one slot: a loan of the node ends LINK_LOST. -/
def loseSlot (n k : Nat) (s : State) : State :=
  match s.loan k with
  | some l => if l.borrower = n then decideEnd k .linkLost s else s
  | none => s

theorem endNode_eq (n : Nat) (s : State) :
    endNode n s = ((removeWaits (fun e => e.node == n) .withdrawn s).eachSlot (loseSlot n)).oweScan := rfl

theorem loseSlot_ages (n k : Nat) (s : State) : Ages s (loseSlot n k s) := by
  unfold loseSlot
  split
  · exact .ite (decideEnd_ages _ _ s) (.refl s)
  · exact .refl s

theorem loseSlot_chain (n k : Nat) (s : State) : EndChain s (loseSlot n k s) := by
  unfold loseSlot
  split
  · split
    · exact decideEnd_chain _ _ s
    · exact .refl
  · exact .refl

theorem loseSlot_lostAt (n k : Nat) (s : State) : (loseSlot n k s).lostAt n k := by
  unfold loseSlot
  split
  · rename_i l h
    split
    · exact decideEnd_lostAt n k s
    · rename_i other
      intro m hm own
      cases h.symm.trans hm
      exact absurd own other
  · rename_i h
    intro m hm
    cases h.symm.trans hm

theorem foldl_loseSlot_lostAt (n : Nat) (ks : List Nat) (s : State) : ∀ k ∈ ks,
    (ks.foldl (fun s k => loseSlot n k s) s).lostAt n k := by
  induction ks generalizing s with
  | nil => simp
  | cons a ks ih =>
    intro k hk
    have rest : Ages (loseSlot n a s) ((a :: ks).foldl (fun s k => loseSlot n k s) s) :=
      foldl_ages _ (fun s k => loseSlot_ages n k s) ks _
    rcases List.mem_cons.mp hk with rfl | later
    · exact rest.lostAt (loseSlot_lostAt n k s)
    · exact ih _ k later

/-- Every loan of the node that is left when each slot has been gone through has ended LINK_LOST. -/
theorem eachSlot_loseSlot_lostAt {s : State} (size : s.loans.length = Config.slots) (n k : Nat) :
    (s.eachSlot (loseSlot n)).lostAt n k := by
  by_cases inside : k < Config.slots
  · exact foldl_loseSlot_lostAt n _ s k (List.mem_range.mpr inside)
  · intro m hm
    obtain ⟨l, hl, -⟩ := eachSlot_ages _ (loseSlot_ages n) s k m hm
    exact absurd (size ▸ s.slot_lt_of_loan k l hl) inside

/-! ### No grant to the node (R33, R34) -/

theorem staleTwins_loans (b : Nat) (range : Option Range) (s : State) : (staleTwins b range s).loans = s.loans := by
  unfold staleTwins
  dsimp only
  split <;> rfl

/-- A new loan of another node leaves the node without a loan that has not ended LINK_LOST. -/
theorem makeLoan_lostAt {s : State} {n node : Nat} (other : node ≠ n) (lost : ∀ k, s.lostAt n k) (i tag bay : Nat)
    (kind : LoanKind) (cls : Cls) (range : Option Range) (k : Nat) : (makeLoan i node tag bay kind cls range s).lostAt n k := by
  have placed (o : OutRecord) :
      (placeReserved node o (s.setSlot i (s.newSlot i (s.newLoan node bay kind cls range)))).lostAt n k :=
    (placeReserved_ages _ _ _).lostAt fun m hm => by
      rcases State.loan_setSlot_cases hm with ⟨-, new⟩ | old
      · cases new
        exact fun own => absurd own other
      · exact lost k m old
  rw [makeLoan_eq]
  split
  · exact (Ages.of_loans (staleTwins_loans _ _ _)).lostAt (placed _)
  · exact placed _

/-- A scan over entries of other nodes makes no loan of the node. -/
theorem scanFrom_lostAt {n : Nat} (todo kept : List WaitEntry) (s : State) (others : ∀ e ∈ todo, e.node ≠ n)
    (lost : ∀ k, s.lostAt n k) : ∀ k, (scanFrom kept todo s).lostAt n k := by
  induction todo generalizing kept s with
  | nil => exact lost
  | cons e rest ih =>
    have ih := fun kept u => ih kept u fun x hx => others x (List.mem_cons_of_mem e hx)
    have less : ∀ k, ({ s with waits := kept ++ rest } : State).lostAt n k := lost
    have refuse (reason : NodeReason) :
        ∀ k, (scanFrom kept rest (refuseEntry e reason { s with waits := kept ++ rest })).lostAt n k :=
      ih kept _ fun k => (refuseEntry_ages e reason _).lostAt (less k)
    unfold scanFrom
    dsimp only
    split
    · exact ih _ s lost
    split
    · exact refuse _
    split
    · exact refuse _
    split
    · exact refuse _
    split
    · split
      · exact lost
      · exact ih kept _ fun k => (recomputeAgainst_ages e _).lostAt
          (makeLoan_lostAt (others e List.mem_cons_self) less _ _ _ _ _ _ k)
    · exact ih _ s lost

theorem finish_lostAt {n : Nat} {s : State} (others : ∀ e ∈ s.waits, e.node ≠ n) (lost : ∀ k, s.lostAt n k) :
    ∀ k, (finish s).lostAt n k := by
  unfold finish
  split
  · exact scanFrom_lostAt s.waits [] s others lost
  · exact lost

/-! ### The link-lost procedure (R175) -/

theorem returnQueued_chain (n : Nat) (x : Link) (s : State) : EndChain s (returnQueued n x s) :=
  foldl_chain _ (fun s ref => (EndMove.giveBack s ref 1).chain) _ s

/-- The state before step 5 of the link-lost procedure: the link has lost its queues, and waits for no buffers. -/
def State.linkGone (s : State) (n : Nat) : State :=
  leavePool (.link n) (returnQueued n (s.link n) (s.setLink n (s.link n).lose))

theorem linkLost_eq (n : Nat) (s : State) : linkLost n s = endNode n (s.linkGone n) := rfl

theorem State.linkGone_link {s : State} {n : Nat} (high : (s.link n).presence = true) :
    (s.linkGone n).link n = (s.link n).lose := by
  have lost : (s.setLink n (s.link n).lose).link n = (s.link n).lose :=
    State.link_setLink_self s n _ (link_lt_of_presence high)
  have returned := (returnQueued_chain n (s.link n) (s.setLink n (s.link n).lose)).grant.link_absent (n := n) (by rw [lost]; rfl)
  exact returned.trans lost

theorem State.linkGone_poolWait (s : State) (n : Nat) : ∀ w ∈ (s.linkGone n).poolWait, w.who ≠ .link n := by
  intro w hw
  simpa using (List.mem_filter.mp hw).2

theorem State.linkGone_loans_length (s : State) (n : Nat) : (s.linkGone n).loans.length = s.loans.length :=
  (returnQueued_chain n _ _).frame.slots

theorem endNode_grants (n : Nat) (s : State) : GrantChain s (endNode n s) :=
  ((removeWaits_chain _ _ s).trans (EndChain.grant (eachSlot_chain _ (loseSlot_chain n) _))).tail (.ends (.owe _))

theorem endNode_waits (n : Nat) (s : State) : ∀ e ∈ (endNode n s).waits, e.node ≠ n := by
  intro e he
  have ended := (EndChain.frame (eachSlot_chain _ (loseSlot_chain n) (removeWaits (fun e => e.node == n) .withdrawn s))).waits
  rw [endNode_eq, State.oweScan_waits, ended, removeWaits_waits] at he
  simpa using (List.mem_filter.mp he).2

theorem State.loans_length_of_sizes {s t : State} (h : t.sizes = s.sizes) : t.loans.length = s.loans.length := by
  simp only [State.sizes, List.cons.injEq] at h
  exact h.2.1

theorem endNode_lostAt {s : State} (size : s.loans.length = Config.slots) (n k : Nat) : (endNode n s).lostAt n k := by
  have kept := State.loans_length_of_sizes (GrantChain.sizes (removeWaits_chain (fun e => e.node == n) .withdrawn s))
  rw [endNode_eq]
  exact (Ages.of_loans (State.oweScan_loans _)).lostAt (eachSlot_loseSlot_lostAt (kept.trans size) n k)

theorem exec_nodePresenceFall {s : State} {n : Nat} (hn : isNode n = true) (high : (s.link n).presence = true) :
    exec (.nodePresenceFall n) s = .next (finish (linkLost n s)) := by
  show execNodePresenceFall n s = _
  rw [execNodePresenceFall, onNode_eq hn, if_pos high]

/-- Settles O5: the link has lost its queues (`State.linkGone_link`), and no end or grant that follows touches it; the node's wait
entries go (`endNode_waits`), so that the scan grants it nothing, and its loans end LINK_LOST (`endNode_lostAt`). -/
theorem nodePresenceFallLosesNode : Obligations.NodePresenceFallLosesNode := by
  intro s n hn shaped high
  have after : GrantChain (s.linkGone n) (finish (linkLost n s)) := (endNode_grants n _).trans (finish_chain _)
  have link := State.linkGone_link high
  have lost := finish_lostAt (endNode_waits n (s.linkGone n))
    (endNode_lostAt ((s.linkGone_loans_length n).trans shaped.loans) n)
  refine ⟨_, exec_nodePresenceFall hn high, ?_, ?_, fun e he => ?_, fun k l hl own => (lost k l hl own).2⟩
  · exact (after.link_absent (by rw [link]; rfl)).trans link
  · rw [after.poolWait]
    exact s.linkGone_poolWait n
  · exact endNode_waits n _ e ((GrantChain.frame (finish_chain _)).waits.subset he)

end Sys2Proof.Machine
end

section
/-! PROOFS. Presence rises on a node link (O6), and falls and rises on the supervisor link (O7). -/

namespace Sys2Proof.Machine

/-- R172: an empty queue without a reservation has room. -/
theorem Link.free_empty {x : Link} (placed : x.placed = []) (reserved : x.reserved = 0) : x.free = 64 := by
  simp [Link.free, placed, reserved, Config.outbound]

theorem hasRoom_absent {s : State} {l : Nat} (low : (s.link l).presence = false) : s.hasRoom l = false := by
  simp [State.hasRoom, low]

theorem exec_nodePresenceRise {s : State} {n : Nat} (hn : isNode n = true) (low : (s.link n).presence = false)
    (farReady : Bool) : exec (.nodePresenceRise n farReady) s =
      .next (place n { tag := 0, record := .restarted n .presence } (s.setLink n ((s.link n).regain farReady))) := by
  show execNodePresenceRise n farReady s = _
  rw [execNodePresenceRise, onNode_eq hn, if_neg (by simp [low])]
  rfl

/-- Settles O6: the link that has presence again has an empty queue, which has room for RESTARTED. -/
theorem nodePresenceRisePlacesRestarted : Obligations.NodePresenceRisePlacesRestarted := by
  intro s n farReady hn inside low placed reserved sending
  have link : (s.setLink n ((s.link n).regain farReady)).link n = (s.link n).regain farReady :=
    State.link_setLink_self _ _ _ inside
  have free : ((s.link n).regain farReady).free = 64 := Link.free_empty placed reserved
  have room : (s.setLink n ((s.link n).regain farReady)).hasRoom n = true := by
    rw [State.hasRoom, link, free]
    rfl
  rw [exec_nodePresenceRise hn low, place_eq room, link, State.setLink_setLink]
  simp [Link.placing, Link.regain, placed, sending]

/-- Settles O7: the fall and the rise write the link's record out; a notice is placed where the link has room alone
(`hasRoom_absent`). -/
theorem supervisorPresenceChanges : Obligations.SupervisorPresenceChanges := by
  refine ⟨fun s high => ⟨?_, ?_⟩, fun s low => ?_, fun s farReady inside low inbound => ⟨?_, ?_⟩⟩
  · show execSupervisorPresenceFall s = _
    rw [execSupervisorPresenceFall, if_pos high]
    rfl
  · have fallen (x : Link) : (s.setLink 0 x).link 0 = x := State.link_setLink_self s 0 x (link_lt_of_presence high)
    exact congrArg Link.partReady (fallen _)
  · show execNoticePlace s = _
    rw [execNoticePlace, hasRoom_absent low]
    rfl
  · show execSupervisorPresenceRise farReady s = _
    rw [execSupervisorPresenceRise, if_neg (by simp [low])]
    rfl
  · rw [State.link_setLink_self s 0 _ inside]
    simp [Link.partReady, inbound, Config.inbound]

end Sys2Proof.Machine
end

section
/-! PROOFS. Supervisor frames with tag 0 or a short body (O48). -/

namespace Sys2Proof.Machine

/-- R174: a supervisor frame with tag 0 is rejected before its act. -/
theorem State.CanTake.supervised_badTag {s : State} {kind : Nat} {f : Frame} (h : s.CanTake 0 kind 1 f) (tag : f.tag = 0)
    (act : Frame → State → State) :
    Machine.supervised kind act s = .next (s.answer 0 f (.reject .badTag .header 4 kind)) := by
  have answered := finish_reply_took h.settled h.presence f (.reject .badTag .header 4 f.kind)
  rw [Machine.supervised, State.CanTake.taking (needs := oneEntry) h, if_pos tag, ← h.isKind, ← answered]
  rfl

/-- R174: a form whose first check is that of the body's length rejects a shorter body. -/
theorem State.CanTake.supervised_short {α : Type} {s : State} {kind n : Nat} {f : Frame} {form : List Byte → Form α}
    {checks : Unit → Form α} (h : s.CanTake 0 kind 1 f) (tag : f.tag ≠ 0) (short : f.body.length < n)
    (begins : form f.body = (atLeast f.body n >>= checks)) (act : Frame → α → State → State) :
    Machine.supervised kind (formed form act) s = .next (s.answer 0 f (.reject .badLength .body f.body.length kind)) := by
  refine h.supervised_rejects (r := ⟨.badLength, .body, f.body.length⟩) tag ?_ act
  rw [begins, atLeast_bind, if_pos short, rejectLength, min_eq_left short.le]

/-- Each command that takes a supervisor's frame takes it by the frame's kind, with an act of its own. -/
theorem exec_supervised {c : Instr} {kind : Nat}
    (h : (c, kind) ∈ [(Instr.setBay, kindSetBay), (.setNode, kindSetNode), (.setShelf, kindSetShelf), (.copy, kindCopy),
      (.haltCopy, kindHaltCopy), (.dropTwin, kindDropTwin), (.releaseBay, kindReleaseBay), (.restoreBay, kindRestoreBay),
      (.reclaim, kindReclaim), (.report, kindReport), (.readCause, kindReadCause), (.arm, kindArm), (.save, kindSave)]) :
    ∃ act, exec c = supervised kind act := by
  simp only [List.mem_cons, Prod.mk.injEq, List.not_mem_nil, or_false] at h
  rcases h with ⟨rfl, rfl⟩ | ⟨rfl, rfl⟩ | ⟨rfl, rfl⟩ | ⟨rfl, rfl⟩ | ⟨rfl, rfl⟩ | ⟨rfl, rfl⟩ | ⟨rfl, rfl⟩ | ⟨rfl, rfl⟩ |
    ⟨rfl, rfl⟩ | ⟨rfl, rfl⟩ | ⟨rfl, rfl⟩ | ⟨rfl, rfl⟩ | ⟨rfl, rfl⟩ <;> exact ⟨_, rfl⟩

/-- Settles O48: tag 0 is rejected for every such command alike (`exec_supervised`); the seven forms of a fixed layout begin
with the check of the body's length (`State.CanTake.supervised_short`). -/
theorem supervisorFormChecked : Obligations.SupervisorFormChecked := by
  constructor
  · intro c kind listed s f h tag
    obtain ⟨act, acts⟩ := exec_supervised listed
    rw [acts, h.supervised_badTag tag]
  · intro c kind layout listed s f h tag short
    simp only [List.mem_cons, Prod.mk.injEq, List.not_mem_nil, or_false] at listed
    rcases listed with ⟨rfl, rfl, rfl⟩ | ⟨rfl, rfl, rfl⟩ | ⟨rfl, rfl, rfl⟩ | ⟨rfl, rfl, rfl⟩ | ⟨rfl, rfl, rfl⟩ |
      ⟨rfl, rfl, rfl⟩ | ⟨rfl, rfl, rfl⟩
    · exact h.supervised_short (form := setBayForm) tag short rfl setBayAct
    · exact h.supervised_short (form := setNodeForm) tag short rfl setNodeAct
    · exact h.supervised_short (form := setShelfForm) tag short rfl setShelfAct
    · exact h.supervised_short (form := reportForm) tag short rfl reportAct
    · exact h.supervised_short (form := armForm) tag short rfl armAct
    · exact h.supervised_short (form := twinForm) tag short rfl haltAct
    · exact h.supervised_short (form := twinForm) tag short rfl dropAct

end Sys2Proof.Machine
end

section
/-! PROOFS. SAVE and its completion (O54). -/

namespace Sys2Proof.Machine

/-- Settles O54: a SAVE begins a save or is refused (`saveAct`), and its completion writes the snapshot (`saveComplete`). -/
theorem saveStores : Obligations.SaveStores := by
  constructor
  · intro s f h tag
    have acts : exec .save s = .next (finish (saveAct f (s.took 0 1))) := h.supervised tag saveAct
    refine ⟨fun idle => ?_, fun running => ?_⟩
    · have begins : saveAct f (s.took 0 1) = { s.setLink 0 (s.link 0).kept with
          saving := some { image := imageOf s.settings, tag := some f.tag, check := crc16 (settingsBytes s.settings)
                           ticks := 0 } } := if_neg (by simp [State.took, idle])
      rw [acts, begins]
      exact congrArg _ (finish_of_settled h.settled)
    · have busy : saveAct f (s.took 0 1) = reply 0 f (.refusedSup .busy) (s.took 0 1) :=
        if_pos (Option.isSome_iff_ne_none.mpr running)
      rw [acts, busy, finish_reply_took h.settled h.presence]
  · intro s v saving
    have completes : exec .saveComplete s = .next (saveComplete v s) := by
      show execSaveComplete s = _
      rw [execSaveComplete, saving]
    refine ⟨fun tag tagged presence reserved => ?_, fun dropped => ?_⟩
    · rw [completes, saveComplete, tagged]
      exact congrArg _ (placeReserved_eq (s := { s with store := v.image, saving := none }) presence reserved _)
    · rw [completes, saveComplete, dropped]

end Sys2Proof.Machine
end

section
/-! PROOFS. ARM and the NOTICE that is placed (O53). -/

namespace Sys2Proof.Machine

/-! ### ARM (R174, R185) -/

/-- A yes/no field: any code but 0 and 1 fails. -/
theorem coded_bool_bind {α : Type} (off n : Nat) (k : Bool → Form α) :
    (coded off (boolOfCode n) >>= k) = if 1 < n then .error (rejectField off) else k (n == 1) := by
  match n with
  | 0 | 1 => rfl
  | n + 2 => exact (if_pos (by omega)).symm

/-- What the body of an ARM says when each of its six bytes is no or yes. -/
def armBody (body : List Byte) : ArmBody :=
  { arm := field body 0 1 == 1, cause := field body 1 1 == 1, bay := field body 2 1 == 1, copy := field body 3 1 == 1
    worn := field body 4 1 == 1, weak := field body 5 1 == 1 }

/-- R185: the checks of the body of ARM, in their order. -/
theorem armForm_eq (body : List Byte) : armForm body =
    if body.length < 6 then .error (rejectLength body 6)
    else if 1 < field body 0 1 then .error (rejectField 0)
    else if 1 < field body 1 1 then .error (rejectField 1)
    else if 1 < field body 2 1 then .error (rejectField 2)
    else if 1 < field body 3 1 then .error (rejectField 3)
    else if 1 < field body 4 1 then .error (rejectField 4)
    else if 1 < field body 5 1 then .error (rejectField 5)
    else .ok (armBody body) := by
  simp only [armForm, atLeast_bind, coded_bool_bind]
  rfl

/-- R185: the first byte that is neither no nor yes fails. -/
theorem armForm_rejects {body : List Byte} {i : Nat} (long : 6 ≤ body.length) (inside : i < 6) (bad : 1 < field body i 1)
    (good : ∀ j < i, field body j 1 ≤ 1) : armForm body = .error (rejectField i) := by
  have passes (j : Nat) (hj : j < i) : ¬ 1 < field body j 1 := (good j hj).not_gt
  rw [armForm_eq, if_neg long.not_gt]
  interval_cases i <;> simp [bad, passes]

theorem Notice.mark_eq (marked arm : Bool) (n : Notice) :
    n.mark marked arm = { n with armed := if marked then arm else n.armed } := by cases marked <;> rfl

/-! ### NOTICE_PLACE (R185) -/

theorem Notice.eligible_eq_false {n : Notice} : n.eligible = false ↔ n.pending = false ∨ n.armed = false :=
  Bool.and_eq_false_iff

/-- R185: the eligible kind of lowest code comes first. -/
theorem Notices.first_eq_some {ns : Notices} {k : NoticeKind} (eligible : (ns.get k).eligible = true)
    (lower : ∀ j : NoticeKind, j.code < k.code → (ns.get j).eligible = false) : ns.first = some k := by
  cases k with
  | cause => simp [Notices.first, eligible]
  | bay => simp [Notices.first, eligible, lower .cause (by decide)]
  | copy => simp [Notices.first, eligible, lower .cause (by decide), lower .bay (by decide)]
  | worn => simp [Notices.first, eligible, lower .cause (by decide), lower .bay (by decide), lower .copy (by decide)]
  | weak =>
    simp [Notices.first, eligible, lower .cause (by decide), lower .bay (by decide), lower .copy (by decide),
      lower .worn (by decide)]

theorem Notices.first_eq_none {ns : Notices} (quiet : ∀ k, (ns.get k).eligible = false) : ns.first = none := by
  simp [Notices.first, quiet]

/-- Settles O53: ARM's checks and marks (`armForm_eq`, `Notice.mark_eq`), and the kind that is first (`Notices.first_eq_some`). -/
theorem armAndNotices : Obligations.ArmAndNotices := by
  refine ⟨fun s f h tag long => ⟨fun listed => ?_, fun i inside bad good =>
    h.supervised_rejects tag (armForm_rejects long inside bad good) armAct⟩, fun s => ⟨fun k room pending armed lower => ?_,
      fun stays => ?_⟩⟩
  · intro after ns
    have passes (i : Nat) (hi : i < 6) : ¬ 1 < field f.body i 1 := (listed i hi).not_gt
    have form : armForm f.body = .ok (armBody f.body) := by simp [armForm_eq, long.not_gt, passes]
    have marks (i : Nat) (n : Notice) : n.mark (field f.body i 1 == 1) (field f.body 0 1 == 1) = after i n := by
      simp only [Notice.mark_eq, beq_iff_eq, after]
    have act := h.supervised_acts tag form armAct
    simp only [armAct, armBody, State.took, State.setLink, marks] at act
    have answered := finish_reply_took (s := { s with notices := ns }) h.settled h.presence f
      (.takenArm ns.cause.armed ns.bay.armed ns.copy.armed ns.worn.armed ns.weak.armed)
    exact act.trans (congrArg _ answered)
  · intro n
    have first : s.notices.first = some k := Notices.first_eq_some (Bool.and_eq_true_iff.mpr ⟨pending, armed⟩)
      fun j less => Notice.eligible_eq_false.mpr (lower j less)
    show execNoticePlace s = _
    rw [execNoticePlace, if_pos room, first]
    simp only [placeNotice, place_eq room]
    rfl
  · show execNoticePlace s = _
    rw [execNoticePlace]
    rcases stays with full | quiet
    · rw [if_neg (by simp [full])]
    · rw [Notices.first_eq_none fun k => Notice.eligible_eq_false.mpr (quiet k), ite_self]

end Sys2Proof.Machine
end

section
/-! PROOFS. The settings image (O55). -/

namespace Sys2Proof.Machine

/-! ### Runs of equal length -/

section
variable {α : Type} {f : α → List Byte} {n : Nat}

theorem length_flatMap_of_size (size : ∀ a, (f a).length = n) (as : List α) : (as.flatMap f).length = n * as.length := by
  simp [List.length_flatMap, size, Nat.mul_comm]

/-- The `i`-th of several runs of `n` bytes each. -/
theorem take_drop_flatMap (size : ∀ a, (f a).length = n) {as : List α} {i : Nat} (hi : i < as.length) (rest : List Byte) :
    ((as.flatMap f ++ rest).drop (n * i)).take n = f as[i] := by
  induction as generalizing i with
  | nil => exact absurd hi (Nat.not_lt_zero i)
  | cons a as ih =>
    rw [List.flatMap_cons, List.append_assoc]
    cases i with
    | zero => rw [Nat.mul_zero, List.drop_zero, ← size a, List.take_left]; rfl
    | succ i =>
      rw [Nat.mul_succ, Nat.add_comm, ← List.drop_drop, ← size a, List.drop_left, size a]
      exact ih (Nat.lt_of_succ_lt_succ hi)

/-- What is read from the runs of `n` bytes that are written for a list is what is read for each of its members. -/
theorem map_range_flatMap (size : ∀ a, (f a).length = n) {read : List Byte → α} {as : List α}
    (back : ∀ a ∈ as, read (f a) = a) (rest : List Byte) :
    ((List.range as.length).map fun i => read (((as.flatMap f ++ rest).drop (n * i)).take n)) = as := by
  refine List.ext_getElem (by simp) fun i _ hi => ?_
  rw [List.getElem_map, List.getElem_range, take_drop_flatMap size hi, back _ (List.getElem_mem hi)]

end

/-! ### Fields that are written and read (00_scope.md 4.1, Table 9-4) -/

theorem ofBytes_byte {n : Nat} (h : n < 256) : ofBytes [byte n] = n := by
  rw [ofBytes_single, toNat_byte, Nat.mod_eq_of_lt h]

theorem ofBytes_be32 {n : Nat} (h : n < 4294967296) : ofBytes (be32 n) = n := by
  simp only [ofBytes, be32, List.foldl_cons, List.foldl_nil, toNat_byte]
  omega

theorem imageBool_boolCode (b : Bool) : imageBool (ofBytes [byte (boolCode b)]) = b := by cases b <;> rfl

theorem imageCls_code (c : Cls) : imageCls (ofBytes [byte c.code]) = c := by cases c <;> rfl

theorem imageLevel_code (l : Level) : imageLevel (ofBytes [byte l.code]) = l := by cases l <;> rfl

/-- R179: an optional bay is 0xFF when absent, which is no bay. -/
theorem bay_optNumber {n : Option Nat} (h : ∀ b, n = some b → b < Config.bays) :
    (if ofBytes [byte (optNumber n)] < Config.bays then some (ofBytes [byte (optNumber n)]) else none) = n := by
  cases n with
  | none => rfl
  | some b =>
    have inside : b < Config.bays := h b rfl
    have small : b < 256 := inside.trans (by decide)
    rw [optNumber, Option.getD_some, ofBytes_byte small, if_pos inside]

/-! ### Profiles and node entries (10.4) -/

theorem profileBytes_length (p : Profile) : (profileBytes p).length = 25 := rfl

theorem nodeEntryBytes_length (e : NodeEntry) : (nodeEntryBytes e).length = 7 := rfl

theorem profileOf_profileBytes {p : Profile} (h : p.storable) : profileOf (profileBytes p) = p := by
  obtain ⟨quantum, exponent, cap, hold, hot, spare, first, last, period, length, timeout, spin⟩ := h
  have reads : profileOf (profileBytes p) =
      { enabled := imageBool (ofBytes [byte (boolCode p.enabled)])
        releasePermitted := imageBool (ofBytes [byte (boolCode p.releasePermitted)])
        quantum := ofBytes [byte p.quantum], seekExponent := ofBytes [byte p.seekExponent]
        seekCap := ofBytes [byte p.seekCap], holdMinimum := ofBytes (be16 p.holdMinimum)
        hotThreshold := ofBytes [byte p.hotThreshold]
        spare := if ofBytes [byte (optNumber p.spare)] < Config.bays then some (ofBytes [byte (optNumber p.spare)]) else none
        hotFirst := ofBytes (be32 p.hotFirst), hotLast := ofBytes (be32 p.hotLast)
        upkeepPeriod := ofBytes (be16 p.upkeepPeriod), upkeepLength := ofBytes (be16 p.upkeepLength)
        operationTimeout := ofBytes (be16 p.operationTimeout), spinLimit := ofBytes (be16 p.spinLimit) } := rfl
  rw [reads, imageBool_boolCode, imageBool_boolCode, ofBytes_byte quantum, ofBytes_byte exponent, ofBytes_byte cap,
    ofBytes_be16 hold, ofBytes_byte hot, bay_optNumber spare, ofBytes_be32 first, ofBytes_be32 last, ofBytes_be16 period,
    ofBytes_be16 length, ofBytes_be16 timeout, ofBytes_be16 spin]

theorem nodeEntryOf_nodeEntryBytes {e : NodeEntry} (h : e.storable) : nodeEntryOf (nodeEntryBytes e) = e := by
  obtain ⟨limit, hold, gap⟩ := h
  have reads : nodeEntryOf (nodeEntryBytes e) =
      { enabled := imageBool (ofBytes [byte (boolCode e.enabled)]), classCap := imageCls (ofBytes [byte e.classCap.code])
        loanLimit := ofBytes [byte e.loanLimit], holdBase := ofBytes (be16 e.holdBase)
        dataGap := ofBytes (be16 e.dataGap) } := rfl
  rw [reads, imageBool_boolCode, imageCls_code, ofBytes_byte limit, ofBytes_be16 hold, ofBytes_be16 gap]

/-! ### The image (10.4) -/

/-- A field that stands behind the first `n` bytes. -/
theorem field_append {front : List Byte} {n : Nat} (size : front.length = n) (back : List Byte) (off width : Nat) :
    field (front ++ back) (n + off) width = field back off width := by
  rw [field, field, ← List.drop_drop, ← size, List.drop_left]

section
variable {t : Settings}

theorem profilesBytes_length (h : t.storable) : (t.profiles.flatMap profileBytes).length = 600 := by
  rw [length_flatMap_of_size profileBytes_length, h.1]
  rfl

theorem settingsBytes_front_length (h : t.storable) :
    (t.profiles.flatMap profileBytes ++ t.nodeTable.flatMap nodeEntryBytes).length = 712 := by
  rw [List.length_append, profilesBytes_length h, length_flatMap_of_size nodeEntryBytes_length, h.2.1]
  rfl

theorem settingsBytes_length (h : t.storable) : (settingsBytes t).length = 714 := by
  rw [settingsBytes, List.length_append, settingsBytes_front_length h]
  rfl

/-- R189: the check of an image passes that is followed by its own check word. -/
theorem imageChecks_imageOf (h : t.storable) : imageChecks (imageOf t) = true := by
  have body : (imageOf t).take 714 = settingsBytes t := by rw [imageOf, ← settingsBytes_length h, List.take_left]
  have check : field (imageOf t) 714 2 = crc16 (settingsBytes t) :=
    (field_append (settingsBytes_length h) _ 0 2).trans (ofBytes_be16 (crc16_lt _))
  rw [imageChecks, body, check, beq_self_eq_true]

theorem settingsOf_imageOf (h : t.storable) : settingsOf (imageOf t) = t := by
  have ⟨bays, nodes, group, profiles, entries⟩ := h
  let tail := [byte t.level.code, byte t.spinGroup] ++ be16 (crc16 (settingsBytes t))
  have image : imageOf t = t.profiles.flatMap profileBytes ++ (t.nodeTable.flatMap nodeEntryBytes ++ tail) := by
    simp [imageOf, settingsBytes, tail]
  have front : imageOf t = (t.profiles.flatMap profileBytes ++ t.nodeTable.flatMap nodeEntryBytes) ++ tail := by
    rw [image, List.append_assoc]
  have readProfiles : ((List.range Config.bays).map fun i => profileOf (((imageOf t).drop (25 * i)).take 25)) = t.profiles := by
    rw [image, ← bays]
    exact map_range_flatMap profileBytes_length (fun p hp => profileOf_profileBytes (profiles p hp)) _
  have readNodes :
      ((List.range Config.nodes).map fun i => nodeEntryOf (((imageOf t).drop (600 + 7 * i)).take 7)) = t.nodeTable := by
    simp only [image, ← List.drop_drop, List.drop_left' (profilesBytes_length h)]
    rw [← nodes]
    exact map_range_flatMap nodeEntryBytes_length (fun e he => nodeEntryOf_nodeEntryBytes (entries e he)) _
  have readLevel : imageLevel (field (imageOf t) 712 1) = t.level := by
    rw [front, field_append (settingsBytes_front_length h) _ 0 1]
    exact imageLevel_code t.level
  have readGroup : field (imageOf t) 713 1 = t.spinGroup := by
    rw [front, field_append (settingsBytes_front_length h) _ 1 1]
    exact ofBytes_byte group
  rw [settingsOf, readProfiles, readNodes, readLevel, readGroup]

end

/-- Settles O55: each run of the image reads back as what it was written from (`map_range_flatMap`), and the check word is the
image's own (`imageChecks_imageOf`). -/
theorem settingsImageRoundTrips : Obligations.SettingsImageRoundTrips := by
  intro t h
  constructor
  · rw [imageOf, List.length_append, settingsBytes_length h]
    rfl
  · rw [loadImage, imageChecks_imageOf h, if_pos rfl, settingsOf_imageOf h]

end Sys2Proof.Machine
end

section
/-! PROOFS. REPORT (O51). -/

namespace Sys2Proof.Machine

/-! ### The body (R183) -/

/-- R183: the checks of the body of REPORT, in their order, and what each selector asks for. -/
theorem reportForm_eq (body : List Byte) : reportForm body =
    if body.length < 2 then .error (rejectLength body 2)
    else if field body 0 1 = 1 then if field body 1 1 < 24 then .ok (.bay (field body 1 1)) else .error (rejectField 1)
    else if field body 0 1 = 2 then if field body 1 1 < 96 then .ok (.loan (field body 1 1)) else .error (rejectField 1)
    else if field body 0 1 = 3 then
      if 1 ≤ field body 1 1 ∧ field body 1 1 ≤ 16 then .ok (.node (field body 1 1)) else .error (rejectField 1)
    else if field body 0 1 = 4 then .ok .pool
    else if field body 0 1 = 5 then .ok .twins
    else if field body 0 1 = 6 then .ok .shelf
    else .error (rejectField 0) := by
  simp only [reportForm, atLeast_bind, demand_bind, Bool.and_eq_true, decide_eq_true_eq, ite_not]
  match field body 0 1 with
  | 0 | 1 | 2 | 3 | 4 | 5 | 6 => rfl
  | n + 7 => simp

section
variable {s : State} {f : Frame}

/-! ### The report (R183) -/

/-- The taking of the REPORT changes nothing that a report shows: it shows no part of the supervisor's link. -/
theorem State.report_took {sel : Selector} (h : sel ≠ .node 0) : (s.took 0 1).report sel = s.report sel := by
  cases sel with
  | node n =>
    have other : (s.took 0 1).link n = s.link n := State.link_setLink_ne s 0 n _ fun e => h (congrArg Selector.node e.symm)
    simp only [State.report, State.nodeReport, other]
    rfl
  | _ => rfl

/-- A REPORT whose body passes its checks is answered. -/
theorem exec_report {sel : Selector} (h : s.CanTake 0 kindReport 1 f) (tag : f.tag ≠ 0) (form : reportForm f.body = .ok sel)
    (named : sel ≠ .node 0) : exec .report s = .next (s.answer 0 f (.report (s.report sel))) := by
  have acts : exec .report s = .next (finish (reportAct f sel (s.took 0 1))) := h.supervised_acts tag form reportAct
  rw [acts, reportAct, State.report_took named, finish_reply_took h.settled h.presence]

/-- R146: a bay's place in the spin queue, counted from 1. -/
theorem State.bayReport_spinPlace {n i : Nat} (waits : (s.bay n).state = .spinWait) (at_ : s.spinQueue[i]? = some n)
    (first : n ∉ s.spinQueue.take i) : (s.bayReport n).spinPlace = some (i + 1) := by
  have found : s.spinQueue.findIdx? (fun q => q == n) = some i := by
    obtain ⟨inside, here⟩ := List.getElem?_eq_some_iff.mp at_
    refine List.findIdx?_eq_some_iff_getElem.mpr ⟨inside, by simp [here], fun j hj => ?_⟩
    have earlier : s.spinQueue[j] ∈ s.spinQueue.take i := List.mem_take_iff_getElem.mpr ⟨j, by omega, rfl⟩
    simpa using fun e : s.spinQueue[j] = n => first (e ▸ earlier)
  simp [State.bayReport, waits, found]

/-- R183: the count of a node link on the pool wait list, when the list holds one for it. -/
theorem State.nodeReport_poolWait {n : Nat} {w : Waiter} (listed : w ∈ s.poolWait) (names : w.who = .link n)
    (one : ∀ v ∈ s.poolWait, v.who = .link n → v.count = w.count) : (s.nodeReport n).poolWait = some w.count := by
  show (s.poolWait.find? fun w => w.who == .link n).map Waiter.count = _
  cases found : s.poolWait.find? fun w => w.who == .link n with
  | none => exact absurd (by simpa using names) (List.find?_eq_none.mp found w listed)
  | some v =>
    have named : v.who = .link n := by simpa using List.find?_some found
    exact congrArg some (one v (List.mem_of_find?_eq_some found) named)

theorem State.nodeReport_poolWait_none {n : Nat} (unlisted : ∀ w ∈ s.poolWait, w.who ≠ .link n) :
    (s.nodeReport n).poolWait = none := by
  have found : (s.poolWait.find? fun w => w.who == .link n) = none :=
    List.find?_eq_none.mpr fun w hw => by simpa using unlisted w hw
  show (s.poolWait.find? fun w => w.who == .link n).map Waiter.count = _
  rw [found, Option.map_none]

/-- R168: the twin records are listed by their numbers. -/
theorem State.twinReport_records_pairwise (s : State) : s.twinReport.records.Pairwise fun a b => a.1 < b.1 := by
  have numbers (t : Nat) (e : Nat × Twin × Nat) (h : (s.twin t).map (fun w => (t, w, s.loansVia t)) = some e) : e.1 = t := by
    obtain ⟨w, -, rfl⟩ := Option.map_eq_some_iff.mp h
    rfl
  refine List.pairwise_filterMap.mpr (List.pairwise_lt_range.imp fun {i j} less a ha b hb => ?_)
  rw [numbers i a ha, numbers j b hb]
  exact less

theorem State.mem_twinReport_records {i c : Nat} {w : Twin} :
    (i, w, c) ∈ s.twinReport.records ↔ i < 6 ∧ s.twin i = some w ∧ c = s.loansVia i := by
  simp only [State.twinReport, List.mem_filterMap, List.mem_range, Option.map_eq_some_iff, Prod.mk.injEq]
  constructor
  · rintro ⟨t, inside, v, twin, rfl, rfl, rfl⟩
    exact ⟨inside, twin, rfl⟩
  · rintro ⟨inside, twin, rfl⟩
    exact ⟨i, inside, w, twin, rfl, rfl, rfl⟩

theorem State.mem_shelfReport_spinning {b : Nat} : b ∈ s.shelfReport.spinning ↔ b < 24 ∧ (s.bay b).state = .spinning := by
  simp [State.shelfReport, Config.bays]

end

/-- Settles O51: the selectors of the body (`reportForm_eq`), and the report of each as it stands (`exec_report`). -/
theorem reportAnswered : Obligations.ReportAnswered := by
  intro s f h tag long n answers
  have answered (sel : Selector) (named : sel ≠ .node 0) (form : reportForm f.body = .ok sel) : answers (s.report sel) :=
    exec_report h tag form named
  refine ⟨fun sel inside => ?_, fun sel inside => ?_, fun sel least most => ?_, fun sel => ?_, fun sel => ?_, fun sel => ?_,
    fun sel => ?_, fun out => ?_⟩
  · refine ⟨(s.bayReport n).spinPlace, (s.bayReport n).chosenCount, fun other => if_neg other,
      fun i waits at_ first => State.bayReport_spinPlace waits at_ first, fun none => ?_, fun ref r chosen record => ?_,
      fun c chosen => ?_, answered (.bay n) nofun ?_⟩
    · simp [State.bayReport, none]
    · simp [State.bayReport, chosen, record]
    · simp [State.bayReport, chosen]
    · rw [reportForm_eq, if_neg long.not_gt, if_pos sel, if_pos inside]
  · refine answered (.loan n) nofun ?_
    simp [reportForm_eq, long.not_gt, sel, inside, n]
  · refine ⟨(s.nodeReport n).poolWait, fun w listed names one => State.nodeReport_poolWait listed names one,
      State.nodeReport_poolWait_none, answered (.node n) ?_ ?_⟩
    · exact fun e => absurd (Selector.node.inj e) (by omega)
    · simp [reportForm_eq, long.not_gt, sel, least, most, n]
  · exact answered .pool nofun (by simp [reportForm_eq, long.not_gt, sel])
  · exact ⟨_, s.twinReport_records_pairwise, fun i w c => State.mem_twinReport_records,
      answered .twins nofun (by simp [reportForm_eq, long.not_gt, sel])⟩
  · exact ⟨_, fun b => State.mem_shelfReport_spinning, answered .shelf nofun (by simp [reportForm_eq, long.not_gt, sel])⟩
  · refine h.supervised_rejects tag (r := rejectField 0) ?_ reportAct
    rw [reportForm_eq, if_neg long.not_gt, if_neg (by omega), if_neg (by omega), if_neg (by omega), if_neg (by omega),
      if_neg (by omega), if_neg (by omega)]
  · refine h.supervised_rejects tag (r := rejectField 1) ?_ reportAct
    rcases out with ⟨sel, out⟩ | ⟨sel, out⟩ | ⟨sel, out⟩
    · rw [reportForm_eq, if_neg long.not_gt, if_pos sel, if_neg out.not_gt]
    · rw [reportForm_eq, if_neg long.not_gt, if_neg (by omega), if_pos sel, if_neg out.not_gt]
    · rw [reportForm_eq, if_neg long.not_gt, if_neg (by omega), if_neg (by omega), if_pos sel, if_neg (by omega)]

end Sys2Proof.Machine
end

section
/-! PROOFS. READ CAUSE, and the cause flags in a report and at a pin reset (O52). -/

namespace Sys2Proof.Machine

/-! ### What a pin reset leaves of the cause flags (R188, R190) -/

theorem placeRestarted_cause (s : State) : (placeRestarted s).cause = s.cause :=
  List.foldlRecOn (motive := fun t => t.cause = s.cause) _ _ rfl fun t same i _ =>
    ((EndMove.place t (i + 1) { tag := 0, record := .restarted (i + 1) .reset }).frame.cause).trans same

theorem resetBay_cause (b : Nat) (s : State) : (resetBay b s).cause = s.cause := by
  unfold resetBay
  dsimp only
  split <;> split <;> rfl

theorem warmReset_cause (s : State) : (warmReset s).cause = s.cause := by
  have cleared : (clearService s).cause = s.cause := rfl
  rw [warmReset, placeRestarted_cause, State.eachBay]
  exact List.foldlRecOn (motive := fun t => t.cause = s.cause) _ _ cleared fun t same b _ => (resetBay_cause b t).trans same

/-- The answer to a frame stands in the link's outbound queue. -/
theorem State.CanTake.answer_hasPlaced {s : State} {l kind needs : Nat} {f : Frame} (h : s.CanTake l kind needs f) (r : Record) :
    (s.answer l f r).HasPlaced l { tag := f.tag, record := r } := by
  rw [State.HasPlaced, State.answer, State.link_setLink_self _ _ _ h.lt]
  exact List.mem_append_right _ (List.mem_singleton.mpr rfl)

/-- Settles O52: READ CAUSE is answered and clears the flags; a REPORT answers with them, and the resets set their own
(`warmReset_cause`). -/
theorem readCauseClearsFlags : Obligations.ReadCauseClearsFlags := by
  refine ⟨fun s f h tag => ?_, fun s f h tag long sel => ?_, fun s => ?_⟩
  · let clear : Cause := { power := false, pin := false, shelf := false, defaults := false }
    have acts : exec .readCause s = .next (finish { reply 0 f (.cause s.cause) (s.took 0 1) with cause := clear }) :=
      h.supervised tag _
    have replied : reply 0 f (.cause s.cause) (s.took 0 1) = s.answer 0 f (.cause s.cause) := reply_taken f _ h.presence
    rw [acts, replied]
    exact congrArg _ (finish_of_settled h.settled)
  · have form : reportForm f.body = .ok .shelf := by simp [reportForm_eq, long.not_gt, sel]
    exact ⟨_, exec_report h tag form nofun, rfl, s.shelfReport, rfl, h.answer_hasPlaced _⟩
  · have resets : exec .pinReset s = .next (warmReset { s with cause := { s.cause with pin := true } }) := rfl
    exact ⟨_, resets, warmReset_cause _⟩

end Sys2Proof.Machine
end

section
/-! PROOFS. SET BAY and SET NODE (O49). -/

namespace Sys2Proof.Machine

/-! ### The bodies (R180, R181) -/

theorem clsOfCode_code (c : Cls) : clsOfCode c.code = some c := by cases c <;> rfl

/-- A class field of any code but 1 to 3 holds no class (Table 9-4). -/
theorem clsOfCode_unlisted {n : Nat} (h : n = 0 ∨ 3 < n) : clsOfCode n = none := by
  match n, h with
  | 0, _ => rfl
  | n + 4, _ => rfl

theorem coded_bind {α β : Type} (off : Nat) (v : Option α) (k : α → Form β) :
    (coded off v >>= k) = v.elim (.error (rejectField off)) k := by cases v <;> rfl

/-- R180: the profile that the body of a SET BAY for bay `b` stands for, each value clamped to its range (Table 10-1). -/
def bayProfile (body : List Byte) (b : Nat) : Profile :=
  { enabled := field body 1 1 == 1, releasePermitted := field body 2 1 == 1
    quantum := max 1 (min 64 (field body 3 1)), seekExponent := max 8 (min 24 (field body 4 1))
    seekCap := min 64 (field body 5 1), holdMinimum := max 5 (min 600 (field body 6 2))
    hotThreshold := min 64 (field body 8 1)
    spare := if field body 9 1 < 24 ∧ field body 9 1 ≠ b then some (field body 9 1) else none
    hotFirst := field body 10 4, hotLast := field body 14 4, upkeepPeriod := field body 18 2
    upkeepLength := max 8 (min 256 (field body 20 2)), operationTimeout := max 10 (min 3000 (field body 22 2))
    spinLimit := max 100 (min 6000 (field body 24 2)) }

/-- R180: the checks of the body of SET BAY, in their order. -/
theorem setBayForm_eq (body : List Byte) : setBayForm body =
    if body.length < 26 then .error (rejectLength body 26)
    else if ¬ field body 0 1 < 24 then .error (rejectField 0)
    else if 1 < field body 1 1 then .error (rejectField 1)
    else if 1 < field body 2 1 then .error (rejectField 2)
    else .ok (field body 0 1, bayProfile body (field body 0 1)) := by
  simp only [setBayForm, atLeast_bind, demand_bind, coded_bool_bind, decide_eq_true_eq, clamp, Nat.zero_max,
    Bool.and_eq_true, bne_iff_ne]
  rfl

/-- R181: the node entry that the body of a SET NODE stands for but for the raising of its loan limit, each value clamped to
its range. -/
def nodeBody (body : List Byte) (cap : Cls) : NodeEntry :=
  { enabled := field body 1 1 == 1, classCap := cap, loanLimit := max 1 (min 8 (field body 3 1))
    holdBase := max 10 (min 6000 (field body 4 2)), dataGap := max 5 (min 1000 (field body 6 2)) }

/-- R181: the checks of the body of SET NODE, in their order. -/
theorem setNodeForm_eq (body : List Byte) : setNodeForm body =
    if body.length < 8 then .error (rejectLength body 8)
    else if ¬ (1 ≤ field body 0 1 ∧ field body 0 1 ≤ 16) then .error (rejectField 0)
    else if 1 < field body 1 1 then .error (rejectField 1)
    else (clsOfCode (field body 2 1)).elim (.error (rejectField 2)) fun cap => .ok (field body 0 1, nodeBody body cap) := by
  simp only [setNodeForm, atLeast_bind, demand_bind, coded_bool_bind, coded_bind _ (clsOfCode _), Bool.and_eq_true,
    decide_eq_true_eq]
  rfl

/-! ### Recomputes (R51, R53) -/

section
variable {s : State}

/-- A slot whose loan, if a test picks it, has its hold limit recomputed. -/
def Slot.recomputed (picked : Loan → Bool) (limit : Loan → Nat) (x : Slot) : Slot :=
  { x with loan := x.loan.map fun l => if picked l then { l with holdLimit := limit l } else l }

theorem Slot.recomputed_free {picked : Loan → Bool} {limit : Loan → Nat} {x : Slot} (free : x.loan = none) :
    x.recomputed picked limit = x := by
  obtain ⟨issue, loan⟩ := x
  subst free
  rfl

theorem Slot.recomputed_passed {picked : Loan → Bool} {limit : Loan → Nat} {x : Slot} {l : Loan} (held : x.loan = some l)
    (passed : ¬ picked l = true) : x.recomputed picked limit = x := by
  obtain ⟨issue, loan⟩ := x
  subst held
  simp [Slot.recomputed, passed]

theorem Slot.recomputed_picked {picked : Loan → Bool} {limit : Loan → Nat} {x : Slot} {l : Loan} (held : x.loan = some l)
    (pick : picked l = true) : x.recomputed picked limit = { x with loan := some { l with holdLimit := limit l } } := by
  simp [Slot.recomputed, held, pick]

/-- R53: the recompute of a loan that does not end. -/
theorem recompute_short {k : Nat} {l : Loan} (loan : s.loan k = some l) (short : l.state = .active → l.idle < s.holdLimit l) :
    recompute k s = s.setLoan k { l with holdLimit := s.holdLimit l } := by
  simp only [recompute, loan]
  exact if_neg fun ⟨active, le⟩ => (short active).not_ge le

theorem State.setSlot_slot (k : Nat) : s.setSlot k (s.slot k) = s := by rw [State.setSlot, State.slot, set_getD_same]

/-- R51: a recompute of every loan that a test picks, which rests on no loan of the table, when none of them ends. -/
theorem recomputeWhere_map {p : State → Loan → Bool} (size : s.loans.length = Config.slots)
    (same : ∀ loans l, p { s with loans := loans } l = p s l)
    (short : ∀ k l, s.loan k = some l → p s l = true → l.state = .active → l.idle < s.holdLimit l) :
    recomputeWhere p s = { s with loans := s.loans.map (Slot.recomputed (p s) s.holdLimit) } := by
  refine eachSlot_map _ size fun k loans _ hk here => ?_
  have slot : ({ s with loans := loans } : State).slot k = s.loans[k] := by simp [State.slot, List.getD_eq_getElem?_getD, here]
  have loan : ({ s with loans := loans } : State).loan k = s.loans[k].loan := congrArg Slot.loan slot
  have before : s.loan k = s.loans[k].loan := by rw [State.loan, State.slot, List.getD_eq_getElem _ _ hk]
  have kept (unchanged : Slot.recomputed (p s) s.holdLimit s.loans[k] = s.loans[k]) : ({ s with loans := loans } : State) =
      { s with loans := loans.set k (Slot.recomputed (p s) s.holdLimit s.loans[k]) } := by
    rw [unchanged, ← slot]
    exact (State.setSlot_slot k).symm
  cases held : s.loans[k].loan with
  | none =>
    simp only [loan, held]
    exact kept (Slot.recomputed_free held)
  | some l =>
    simp only [loan, held, same]
    split
    · rename_i picked
      rw [recompute_short (loan.trans held) (short k l (before.trans held) picked), Slot.recomputed_picked held picked,
        State.setLoan, slot]
      rfl
    · rename_i passed
      exact kept (Slot.recomputed_passed held passed)

/-! ### SET BAY (R180) -/

/-- The settings with bay `b`'s profile replaced. -/
def State.withProfile (s : State) (b : Nat) (p : Profile) : State :=
  { s with settings := { s.settings with profiles := s.settings.profiles.set b p } }

variable {f : Frame}

/-- R180: a SET BAY that is read is answered, and the loans of the bay are recomputed when its hold minimum has changed. -/
theorem exec_setBay {b : Nat} {p : Profile} (h : s.CanTake 0 kindSetBay 1 f) (tag : f.tag ≠ 0)
    (form : setBayForm f.body = .ok (b, p)) : exec .setBay s = .next (finish
      (if p.holdMinimum = (s.profile b).holdMinimum then (s.withProfile b p).answer 0 f (.takenSetBay b p)
      else recomputeWhere (fun s l => s.sourceBay l == b) ((s.withProfile b p).answer 0 f (.takenSetBay b p)))) := by
  have acts : exec .setBay s = .next (finish (setBayAct f (b, p) (s.took 0 1))) := h.supervised_acts tag form setBayAct
  have replied := reply_taken (s := s.withProfile b p) f (.takenSetBay b p) h.presence
  exact acts.trans (congrArg (fun u => Host.Outcome.next (finish (if p.holdMinimum = (s.profile b).holdMinimum then u
    else recomputeWhere (fun s l => s.sourceBay l == b) u))) replied)

/-! ### SET NODE (R181) -/

/-- R181: a SET NODE that is read replaces the node's entry, its loan limit raised, and is answered. -/
theorem exec_setNode {n : Nat} {e entry : NodeEntry} (h : s.CanTake 0 kindSetNode 1 f) (tag : f.tag ≠ 0)
    (form : setNodeForm f.body = .ok (n, e))
    (raised : entry = { e with loanLimit := max e.loanLimit (s.loanCount n + s.waitCount n) }) :
    exec .setNode s = .next ({ s with settings := { s.settings with
      nodeTable := s.settings.nodeTable.set (n - 1) entry } }.answer 0 f (.takenSetNode n entry)) := by
  subst raised
  have acts : exec .setNode s = .next (finish (setNodeAct f (n, e) (s.took 0 1))) := h.supervised_acts tag form setNodeAct
  exact acts.trans (congrArg _ (finish_reply_took (s := { s with settings := { s.settings with
    nodeTable := s.settings.nodeTable.set (n - 1) _ } }) h.settled h.presence f _))

end

/-- Settles O49: the checks of the two bodies (`setBayForm_eq`, `setNodeForm_eq`), the settings that are replaced
(`exec_setBay`, `exec_setNode`), and the recomputes (`recomputeWhere_map`). -/
theorem bayAndNodeSet : Obligations.BayAndNodeSet := by
  refine ⟨fun s f h tag long => ?_, fun s f h tag long => ?_⟩
  · intro b p t
    have rejected (off : Nat) (form : setBayForm f.body = .error (rejectField off)) :
        exec .setBay s = .next (s.answer 0 f (.reject .badField .body off kindSetBay)) := h.supervised_rejects tag form setBayAct
    refine ⟨fun out => rejected 0 ?_, fun inside bad => rejected 1 ?_, fun inside good bad => rejected 2 ?_,
      fun inside good listed => ?_⟩
    · rw [setBayForm_eq, if_neg long.not_gt, if_pos out.not_gt]
    · rw [setBayForm_eq, if_neg long.not_gt, if_neg (not_not_intro inside), if_pos bad]
    · rw [setBayForm_eq, if_neg long.not_gt, if_neg (not_not_intro inside), if_neg good.not_gt, if_pos bad]
    · have form : setBayForm f.body = .ok (b, p) := by
        rw [setBayForm_eq, if_neg long.not_gt, if_neg (not_not_intro inside), if_neg good.not_gt, if_neg listed.not_gt]
        rfl
      let u := t.answer 0 f (.takenSetBay b p)
      refine ⟨fun same => ?_, fun changed size short => ?_⟩
      · rw [exec_setBay h tag form, if_pos same]
        exact congrArg _ (finish_of_settled (s := u) h.settled)
      · have recomputed : recomputeWhere (fun s l => s.sourceBay l == b) u = { u with
            loans := s.loans.map (Slot.recomputed (fun l => s.sourceBay l == b) t.holdLimit) } :=
          recomputeWhere_map (s := u) size (fun _ _ => rfl) fun k l held own => short k l held (beq_iff_eq.mp own)
        have picked : Slot.recomputed (fun l => s.sourceBay l == b) t.holdLimit = fun x : Slot => { x with
            loan := x.loan.map fun l => if s.sourceBay l = b then { l with holdLimit := t.holdLimit l } else l } := by
          funext x
          simp only [Slot.recomputed, beq_iff_eq]
        rw [exec_setBay h tag form, if_neg changed, show (s.withProfile b p).answer 0 f (.takenSetBay b p) = u from rfl,
          recomputed, picked]
        exact congrArg _ (finish_of_settled h.settled)
  · intro n
    have rejected (off : Nat) (form : setNodeForm f.body = .error (rejectField off)) :
        exec .setNode s = .next (s.answer 0 f (.reject .badField .body off kindSetNode)) :=
      h.supervised_rejects tag form setNodeAct
    refine ⟨fun out => rejected 0 ?_, fun least most bad => rejected 1 ?_, fun least most good bad => rejected 2 ?_,
      fun cap least most good coded => ?_⟩
    · rw [setNodeForm_eq, if_neg long.not_gt, if_pos (by omega)]
    · rw [setNodeForm_eq, if_neg long.not_gt, if_neg (not_not_intro ⟨least, most⟩), if_pos bad]
    · rw [setNodeForm_eq, if_neg long.not_gt, if_neg (not_not_intro ⟨least, most⟩), if_neg good.not_gt,
        clsOfCode_unlisted bad, Option.elim_none]
    · have form : setNodeForm f.body = .ok (n, nodeBody f.body cap) := by
        rw [setNodeForm_eq, if_neg long.not_gt, if_neg (not_not_intro ⟨least, most⟩), if_neg good.not_gt, ← coded,
          clsOfCode_code, Option.elim_some]
      exact exec_setNode h tag form rfl

end Sys2Proof.Machine
end

section
/-! PROOFS. SET SHELF (O50). -/

namespace Sys2Proof.Machine

/-! ### The body (R182) -/

theorem levelOfCode_code (l : Level) : levelOfCode l.code = some l := by cases l <;> rfl

/-- A level field of any code but 1 to 3 holds no level (Table 9-4). -/
theorem levelOfCode_unlisted {n : Nat} (h : n = 0 ∨ 3 < n) : levelOfCode n = none := by
  match n, h with
  | 0, _ => rfl
  | n + 4, _ => rfl

/-- R182: the checks of the body of SET SHELF, in their order. -/
theorem setShelfForm_eq (body : List Byte) : setShelfForm body =
    if body.length < 2 then .error (rejectLength body 2)
    else (levelOfCode (field body 0 1)).elim (.error (rejectField 0))
      fun level => .ok (level, max 1 (min 8 (field body 1 1))) := by
  simp only [setShelfForm, atLeast_bind, coded_bind]
  rfl

section
variable {s : State} {f : Frame}

/-! ### The settings, and a change of the level (R43, R182) -/

/-- The settings with the level and the spin group size replaced. -/
def State.withShelf (s : State) (level : Level) (group : Nat) : State :=
  { s with settings := { s.settings with level := level, spinGroup := group } }

/-- R42: the masks of the wait entries as the level sets them. -/
def State.remasked (s : State) : State :=
  { s with waits := s.waits.map fun e => { e with masked := masks s.settings.level e.cls } }

theorem levelChanged_eq (s : State) : levelChanged s = (recomputeWhere (fun _ _ => true) s.remasked).oweScan := rfl

/-- R182: a SET SHELF that is read is answered, and a level that has changed goes on to the masks and the hold limits. -/
theorem exec_setShelf {level : Level} {low group : Nat} (h : s.CanTake 0 kindSetShelf 1 f) (tag : f.tag ≠ 0)
    (form : setShelfForm f.body = .ok (level, low)) (raised : group = max low s.spinningCount) :
    exec .setShelf s = .next (finish
      (if level = s.settings.level then (s.withShelf level group).answer 0 f (.takenSetShelf level group)
      else levelChanged ((s.withShelf level group).answer 0 f (.takenSetShelf level group)))) := by
  subst raised
  have acts : exec .setShelf s = .next (finish (setShelfAct f (level, low) (s.took 0 1))) :=
    h.supervised_acts tag form setShelfAct
  have replied := reply_taken (s := s.withShelf level (max low s.spinningCount)) f
    (.takenSetShelf level (max low s.spinningCount)) h.presence
  exact acts.trans (congrArg (fun u => Host.Outcome.next (finish (if level = s.settings.level then u else levelChanged u)))
    replied)

/-- R33, R34: a scan of a wait list whose entries are all masked grants nothing. -/
theorem finish_oweScan_masked (masked : ∀ e ∈ s.waits, e.masked = true) (settled : s.Settled) : finish s.oweScan = s := by
  have passes : scanFrom [] s.waits s.oweScan = s.oweScan := by
    have stays := scanFrom_stays (s := s.oweScan) s.waits (fun e he => .inl (masked e he)) [] []
    rw [List.append_nil] at stays
    exact stays
  rw [finish_scan rfl, passes]
  show ({ s with scanDue := false } : State) = s
  rw [← show s.scanDue = false from settled]

theorem GrantMove.settings {s t : State} (m : GrantMove s t) : t.settings = s.settings := by
  cases m with
  | ends m => exact m.frame.settings
  | _ => rfl

theorem GrantChain.settings {s t : State} (c : GrantChain s t) : t.settings = s.settings := by
  induction c with
  | refl => rfl
  | tail _ m ih => exact m.settings.trans ih

/-- R43: after the masks have been set anew, a change of the level recomputes, ends loans and grants. -/
theorem finish_levelChanged_chain (s : State) : GrantChain s.remasked (finish (levelChanged s)) := by
  rw [levelChanged_eq]
  exact ((recomputeWhere_chain _ _).grant.tail (.ends (.owe _))).trans (finish_chain _)

end

/-- Settles O50: the check of the body (`setShelfForm_eq`), the settings that are replaced (`exec_setShelf`), and a change of
the level, with nothing to grant (`finish_oweScan_masked`) and in general (`finish_levelChanged_chain`). -/
theorem shelfSet : Obligations.ShelfSet := by
  refine ⟨fun s f h tag long bad => ?_, fun s f level h tag long coded => ?_⟩
  · refine h.supervised_rejects tag (r := rejectField 0) ?_ setShelfAct
    rw [setShelfForm_eq, if_neg long.not_gt, levelOfCode_unlisted bad, Option.elim_none]
  · intro group t
    have form : setShelfForm f.body = .ok (level, max 1 (min 8 (field f.body 1 1))) := by
      rw [setShelfForm_eq, if_neg long.not_gt, ← coded, levelOfCode_code, Option.elim_some]
    have acts := exec_setShelf (group := group) h tag form rfl
    let v := (s.withShelf level group).answer 0 f (.takenSetShelf level group)
    refine ⟨fun same => ?_, fun changed size masked short => ?_, fun changed => ?_⟩
    · rw [acts, if_pos same]
      exact congrArg _ (finish_of_settled (s := v) h.settled)
    · have recomputed : recomputeWhere (fun _ _ => true) v.remasked = { v.remasked with
          loans := s.loans.map (Slot.recomputed (fun _ => true) t.holdLimit) } :=
        recomputeWhere_map (s := v.remasked) size (fun _ _ => rfl) fun k l held _ => short k l held
      have hidden : ∀ e ∈ v.remasked.waits, e.masked = true := fun e he => by
        obtain ⟨x, hx, rfl⟩ := List.mem_map.mp he
        exact masked x hx
      rw [acts, if_neg changed, levelChanged_eq, recomputed]
      exact congrArg _ (finish_oweScan_masked hidden h.settled)
    · have chain := finish_levelChanged_chain v
      refine ⟨_, acts, ?_⟩
      rw [if_neg changed]
      refine ⟨chain.settings, chain.grows.hasPlaced ?_, fun e he => chain.frame.waits.subset he⟩
      exact State.CanTake.answer_hasPlaced h _

end Sys2Proof.Machine
end

section
/-! PROOFS. Power-on (O56), the pin reset and RESET SHELF (O57). -/

namespace Sys2Proof.Machine

/-! ### Each bay in its turn (R147, R148, R191) -/

/-- What a reset makes of one bay: the bay it leaves, whether that joins the spin queue, and whether it has changed state. -/
structure BayTurn where
  bay     : Bay
  joins   : Bool
  changes : Bool

/-- The turn of bay `b`: a change of state raises the BAY notice, and a join is at the spin queue's tail. -/
def State.turned (s : State) (b : Nat) (x : BayTurn) : State :=
  { s.setBay b x.bay with
    spinQueue := s.spinQueue ++ if x.joins then [b] else []
    notices := if x.changes then s.bayNotice b else s.notices }

/-- Bay `b`'s turn at a reset whose rule for a bay goes by its profile. -/
def State.turn (s : State) (rule : Profile → Bay → BayTurn) (b : Nat) : BayTurn := rule (s.profile b) (s.bay b)

/-- The first `n` bays have had their turns, the spin queue empty and the BAY notice quiet before them. -/
def State.turnedTo (s : State) (rule : Profile → Bay → BayTurn) (n : Nat) : State :=
  { s with
    bays := s.bays.mapIdx fun b x => if b < n then (s.turn rule b).bay else x
    spinQueue := (List.range n).filter fun b => (s.turn rule b).joins
    notices := { s.notices with bay := raisedFor ((List.range n).filter fun b => (s.turn rule b).changes) } }

theorem State.bay_turnedTo {s : State} {rule : Profile → Bay → BayTurn} {n b : Nat} (h : b < s.bays.length) :
    (s.turnedTo rule n).bay b = if b < n then (s.turn rule b).bay else s.bay b := by
  simp [State.bay, State.turnedTo, List.getD_eq_getElem?_getD, h]

/-- R184: one more change of a bay's state, the count below its bound. -/
theorem raisedFor_append {bs : List Nat} (h : bs.length < 255) (b : Nat) :
    { raisedFor bs with pending := true, count := min 255 ((raisedFor bs).count + 1), subject := b } =
      raisedFor (bs ++ [b]) := by
  simp [raisedFor]
  omega

theorem mapIdx_set_next {α : Type} (as : List α) (g : Nat → α) (n : Nat) :
    (as.mapIdx fun i a => if i < n then g i else a).set n (g n) = as.mapIdx fun i a => if i < n + 1 then g i else a := by
  refine List.ext_getElem (by simp) fun i hi _ => ?_
  simp only [List.getElem_set, List.getElem_mapIdx]
  rcases lt_trichotomy i n with less | rfl | more
  · rw [if_neg less.ne', if_pos less, if_pos (Nat.lt_succ_of_lt less)]
  · rw [if_pos rfl, if_pos (Nat.lt_succ_self i)]
  · rw [if_neg more.ne, if_neg more.not_gt, if_neg (by omega)]

theorem turnedTo_zero {s : State} (rule : Profile → Bay → BayTurn) (queue : s.spinQueue = [])
    (quiet : s.notices.bay = raisedFor []) : s.turnedTo rule 0 = s := by
  have same : s.bays.mapIdx (fun b x => if b < 0 then (s.turn rule b).bay else x) = s.bays :=
    List.mapIdx_eq_iff.mpr fun i => by simp
  rw [State.turnedTo, same, List.range_zero, List.filter_nil, List.filter_nil, ← quiet, ← queue]

/-- The next bay has its turn. -/
theorem turned_turnedTo {s : State} (rule : Profile → Bay → BayTurn) {n : Nat} (few : n < 255) :
    (s.turnedTo rule n).turned n (s.turn rule n) = s.turnedTo rule (n + 1) := by
  have short : ((List.range n).filter fun b => (s.turn rule b).changes).length < 255 :=
    (List.length_filter_le _ _).trans_lt (by simpa using few)
  have raised := raisedFor_append short n
  simp only [State.turned, State.turnedTo, State.setBay, mapIdx_set_next s.bays fun b => (s.turn rule b).bay, List.range_succ,
    List.filter_append, List.filter_singleton, Bool.cond_eq_ite]
  by_cases changes : (s.turn rule n).changes = true
  · simp only [changes, if_true, State.bayNotice, raised]
  · simp only [changes, if_false, List.append_nil, Bool.false_eq_true]

/-- A reset that gives each bay its turn, in bay order, gives every bay the turn that it has before any of them. -/
theorem eachBay_eq {s : State} {f : Nat → State → State} (rule : Profile → Bay → BayTurn)
    (size : s.bays.length = Config.bays) (queue : s.spinQueue = []) (quiet : s.notices.bay = raisedFor [])
    (acts : ∀ b (u : State), b < u.bays.length → f b u = u.turned b (u.turn rule b)) :
    s.eachBay f = s.turnedTo rule Config.bays := by
  have first (n : Nat) (inside : n ≤ Config.bays) : (List.range n).foldl (fun s b => f b s) s = s.turnedTo rule n := by
    induction n with
    | zero => exact (turnedTo_zero rule queue quiet).symm
    | succ n ih =>
      have lt : n < s.bays.length := by omega
      have own : (s.turnedTo rule n).turn rule n = s.turn rule n :=
        congrArg (rule (s.profile n)) ((State.bay_turnedTo lt).trans (if_neg (Nat.lt_irrefl n)))
      rw [List.range_succ, List.foldl_append, ih (Nat.le_of_lt inside), List.foldl_cons, List.foldl_nil,
        acts n _ (by simpa [State.turnedTo] using lt), own,
        turned_turnedTo rule (inside.trans_lt' n.lt_succ_self |>.trans (by decide))]
  exact first Config.bays le_rfl

/-- R147, R191: a bay's turn at power-on. -/
def powerTurn (p : Profile) (x : Bay) : BayTurn :=
  { bay := if x.presence ∧ p.enabled then { x with state := .spinWait, faultCause := none, powerOnSpin := true } else x
    joins := x.presence && p.enabled
    changes := x.presence && p.enabled }

theorem powerBay_eq {s : State} {b : Nat} (h : b < s.bays.length) : powerBay b s = s.turned b (s.turn powerTurn b) := by
  unfold powerBay
  by_cases starts : (s.bay b).presence = true ∧ (s.profile b).enabled = true
  · have entered := State.modBay_modBay h (fun x => { x with state := .spinWait, faultCause := none, powerOnSpin := false })
      fun x => { x with powerOnSpin := true }
    have both : ((s.bay b).presence && (s.profile b).enabled) = true := by simpa using starts
    rw [if_pos starts, enterSpinWait_eq h]
    simp only [State.turned, State.turn, powerTurn, both, if_pos starts, if_true]
    exact congrArg (fun u : State => { u with spinQueue := s.spinQueue ++ [b], notices := s.bayNotice b }) entered
  · have stays : ((s.bay b).presence && (s.profile b).enabled) = false := by simpa using starts
    rw [if_neg starts, State.turned, State.turn, powerTurn, if_neg starts, stays, State.setBay, State.bay, set_getD_same]
    simp

/-- R148, R191: a bay's turn at a pin reset or RESET SHELF. -/
def warmTurn (p : Profile) (x : Bay) : BayTurn :=
  { bay := { x.afterReset p with state := x.state.afterReset }
    joins := x.state.afterReset == .spinWait
    changes := x.state.afterReset != x.state }

/-- R148: the change of a bay's state at a reset, before it joins the spin queue. -/
theorem resetBay_state {s : State} {b : Nat} (h : b < s.bays.length) :
    (if (s.bay b).state.afterReset = (s.bay b).state then s.modBay b (Bay.afterReset (s.profile b))
      else setBayState b (s.bay b).state.afterReset (s.modBay b (Bay.afterReset (s.profile b)))) =
    { s.setBay b (s.turn warmTurn b).bay with
      notices := if (s.turn warmTurn b).changes then s.bayNotice b else s.notices } := by
  by_cases same : (s.bay b).state.afterReset = (s.bay b).state
  · have bay : (s.turn warmTurn b).bay = (s.bay b).afterReset (s.profile b) := by
      rw [State.turn, warmTurn, same.trans (Bay.afterReset_state (s.profile b) (s.bay b)).symm]
    have changes : (s.turn warmTurn b).changes = false := bne_eq_false_iff_eq.mpr same
    rw [if_pos same, bay, changes]
    rfl
  · have changes : (s.turn warmTurn b).changes = true := bne_iff_ne.mpr same
    rw [if_neg same, setBayState_modBay h, changes]
    rfl

theorem resetBay_eq {s : State} {b : Nat} (h : b < s.bays.length) : resetBay b s = s.turned b (s.turn warmTurn b) := by
  unfold resetBay
  dsimp only
  rw [resetBay_state h, State.turned]
  by_cases waits : (s.bay b).state.afterReset = .spinWait
  · have joins : (s.turn warmTurn b).joins = true := beq_iff_eq.mpr waits
    rw [if_pos waits, joins]
    rfl
  · have joins : (s.turn warmTurn b).joins = false := beq_eq_false_iff_ne.mpr waits
    rw [if_neg waits, joins, if_neg Bool.false_ne_true, List.append_nil]
    rfl

/-! ### RESTARTED (R176, R192) -/

/-- A link after a record without a reservation has been offered to it. -/
def Link.offered (x : Link) (o : OutRecord) : Link := if x.presence && 0 < x.free then x.placing o else x

theorem place_link (l m : Nat) (o : OutRecord) (s : State) :
    (place l o s).link m = if m = l then (s.link m).offered o else s.link m := by
  by_cases room : s.hasRoom l = true
  · rw [place_eq room]
    split
    · subst m
      have present : (s.link l).presence = true := (Bool.and_eq_true_iff.mp room).1
      rw [State.link_setLink_self _ _ _ (link_lt_of_presence present)]
      exact (if_pos room).symm
    · rw [State.link_setLink_ne _ _ _ _ (Ne.symm ‹_›)]
  · rw [place, if_neg room]
    split
    · subst m
      exact (if_neg room).symm
    · rfl

/-- R176: RESTARTED for node `n` at a reset. -/
def restartedAt (n : Nat) : OutRecord := { tag := 0, record := .restarted n .reset }

/-- Only the links change. -/
theorem placeRestarted_eq (s : State) : placeRestarted s = { s with links := (placeRestarted s).links } := by
  unfold placeRestarted
  induction List.range Config.nodes using List.reverseRecOn with
  | nil => rfl
  | append_singleton is i ih =>
    rw [List.foldl_append, List.foldl_cons, List.foldl_nil, place]
    split
    · exact congrArg (fun t : State => t.setLink _ _) ih
    · exact ih

theorem placeRestarted_link (s : State) (l : Nat) :
    (placeRestarted s).link l = if 1 ≤ l ∧ l ≤ Config.nodes then (s.link l).offered (restartedAt l) else s.link l := by
  unfold placeRestarted
  generalize Config.nodes = n
  induction n with
  | zero => rw [if_neg (by omega)]; rfl
  | succ n ih =>
    rw [List.range_succ, List.foldl_append, List.foldl_cons, List.foldl_nil, place_link, ih]
    by_cases last : l = n + 1
    · rw [if_pos last, if_neg (by omega), if_pos (by omega), last]
      rfl
    · rw [if_neg last]
      congr 1
      simp only [eq_iff_iff]
      omega

/-! ### The links and the rest of the service state (Table 11-1) -/

theorem clearService_link {s : State} {l : Nat} (h : l < s.links.length) :
    (clearService s).link l = (s.link l).cleared l [] := by
  have reset : (clearService s).link l = (s.link l).afterReset l := by
    simp [State.link, clearService, List.getD_eq_getElem?_getD, h]
  exact reset

theorem Link.offered_cleared (n : Nat) (x : Link) (o : OutRecord) :
    (x.cleared n []).offered o = x.cleared n (if x.presence then [o] else []) := by
  cases low : x.presence <;> simp [Link.offered, Link.cleared, Link.placing, Link.free, Link.initial, Config.outbound, low]

/-- The service state of `s` cleared; the loan table, the bays, the settings and what goes with them as they stand in `v`. -/
def State.fresh (s v : State) : State :=
  { clearService s with
    loans := v.loans, bays := v.bays, spinQueue := v.spinQueue, settings := v.settings, cause := v.cause
    notices := { Notices.afterReset with bay := v.notices.bay } }

theorem fresh_serviceCleared {s : State} (shaped : s.Shaped) (v : State) :
    s.serviceCleared (placeRestarted (s.fresh v)) := by
  have link (l : Nat) (h : l ≤ 16) : (s.fresh v).link l = (s.link l).cleared l [] :=
    clearService_link (shaped.links ▸ Nat.lt_succ_of_le h)
  have part {α : Type} (g : State → α) : g (placeRestarted (s.fresh v)) =
      g { s.fresh v with links := (placeRestarted (s.fresh v)).links } := congrArg g (placeRestarted_eq (s.fresh v))
  refine ⟨part State.waits, part State.arrival, part State.records, part State.poolFree, part State.poolWait,
    part State.channels, part State.twins, part State.saving, part State.store, ?_, fun n node => ?_,
    part fun t => t.notices.cause, fun k cause bay => ?_⟩
  · rw [placeRestarted_link, if_neg (by decide), link 0 (by decide)]
  · have range : 1 ≤ n ∧ n ≤ Config.nodes := by simpa [isNode] using node
    rw [placeRestarted_link, if_pos range, link n range.2, Link.offered_cleared]
    rfl
  · rw [part fun t => t.notices.get k]
    cases k with
    | cause => exact absurd rfl cause
    | bay => exact absurd rfl bay
    | _ => rfl

/-! ### A reset whole (R188) -/

/-- The service state of `s` cleared, each bay of `v` given its turn, and RESTARTED placed. -/
def State.restarted (s v : State) (rule : Profile → Bay → BayTurn) : State :=
  placeRestarted (s.fresh (v.turnedTo rule Config.bays))

section
variable (s v : State) (rule : Profile → Bay → BayTurn)

/-- Apart from the links a part is as the bays' turns leave it. -/
theorem State.restarted_part {α : Type} (g : State → α) : g (s.restarted v rule) =
    g { s.fresh (v.turnedTo rule Config.bays) with links := (s.restarted v rule).links } :=
  congrArg g (placeRestarted_eq _)

theorem State.restarted_loans : (s.restarted v rule).loans = v.loans := s.restarted_part v rule State.loans
theorem State.restarted_settings : (s.restarted v rule).settings = v.settings := s.restarted_part v rule State.settings
theorem State.restarted_cause : (s.restarted v rule).cause = v.cause := s.restarted_part v rule State.cause

theorem State.restarted_spinQueue : (s.restarted v rule).spinQueue =
    (List.range 24).filter fun b => (rule (v.profile b) (v.bay b)).joins := s.restarted_part v rule State.spinQueue

theorem State.restarted_bayNotice : (s.restarted v rule).notices.bay =
    raisedFor ((List.range 24).filter fun b => (rule (v.profile b) (v.bay b)).changes) :=
  s.restarted_part v rule fun t => t.notices.bay

theorem State.restarted_profile (b : Nat) : (s.restarted v rule).profile b = v.profile b := by
  rw [State.profile, State.restarted_settings, State.profile]

theorem State.restarted_bay {v : State} (size : v.bays.length = Config.bays) {b : Nat} (h : b < 24) :
    (s.restarted v rule).bay b = (rule (v.profile b) (v.bay b)).bay := by
  have turned := (State.bay_turnedTo (rule := rule) (n := Config.bays) (h.trans_eq size.symm)).trans (if_pos h)
  have bays : (s.restarted v rule).bays = (v.turnedTo rule Config.bays).bays := s.restarted_part v rule State.bays
  rw [State.bay, bays]
  exact turned

end

/-! ### Power-on (R147, R189, R191) -/

theorem poweredBase_bays {s : State} (shaped : s.Shaped) : (loadSettings (poweredBase s)).bays.length = Config.bays := by
  simpa [loadSettings, poweredBase] using shaped.bays

theorem poweredBase_bay {s : State} {b : Nat} (h : b < s.bays.length) :
    (loadSettings (poweredBase s)).bay b = (s.bay b).powered := by
  simp [State.bay, loadSettings, poweredBase, List.getD_eq_getElem?_getD, h]

theorem powerTurn_powered (p : Profile) (x : Bay) : (powerTurn p x.powered).bay =
    if x.presence = true ∧ p.enabled = true then
      { Bay.initial with presence := true, opNumber := x.opNumber, state := .spinWait, powerOnSpin := true }
    else { Bay.initial with presence := x.presence, opNumber := x.opNumber } := by
  by_cases starts : x.presence = true ∧ p.enabled = true
  · have seated : (powerTurn p x.powered).bay = { x.powered with state := .spinWait, faultCause := none, powerOnSpin := true } :=
      if_pos starts
    rw [if_pos starts, seated, Bay.powered, starts.1]
    rfl
  · rw [if_neg starts]
    exact if_neg starts

theorem powerOn_restarted {s : State} (shaped : s.Shaped) :
    powerOn s = s.restarted (loadSettings (poweredBase s)) powerTurn := by
  rw [powerOn_eq, eachBay_eq powerTurn (poweredBase_bays shaped) rfl rfl fun b u h => powerBay_eq h]
  rfl

/-! ### A pin reset and RESET SHELF (R148, R188) -/

theorem warmReset_restarted {s : State} (shaped : s.Shaped) : warmReset s = s.restarted (clearService s) warmTurn := by
  rw [warmReset, eachBay_eq warmTurn (s := clearService s) shaped.bays rfl rfl fun b u h => resetBay_eq h]
  rfl

theorem warmTurn_keeps (p : Profile) (x : Bay) :
    (warmTurn p x).bay.presence = x.presence ∧ (warmTurn p x).bay.capacity = x.capacity ∧
      (warmTurn p x).bay.weak = x.weak ∧ (warmTurn p x).bay.cursor = x.cursor ∧ (warmTurn p x).bay.head = x.head := by
  unfold warmTurn Bay.afterReset
  split <;> exact ⟨rfl, rfl, rfl, rfl, rfl⟩

section
variable {p : Profile} {x : Bay}

/-! R148: the bay that a pin reset or RESET SHELF leaves, by its state. -/

theorem warmTurn_ready (h : x.state = .ready) : (warmTurn p x).bay = { x.clearArbiter with
    state := .ready, service := x.service.map lostUnit, upkeepDue := false, upkeepTimer := upkeepStart p } := by
  simp only [warmTurn, Bay.afterReset, h, BayState.afterReset]

theorem warmTurn_spinning (h : x.state = .spinning) : (warmTurn p x).bay = { x.opOver.clearArbiter with
    state := .spinWait, powerOnSpin := false, service := none } := by
  simp only [warmTurn, Bay.afterReset, h, BayState.afterReset]

theorem warmTurn_leaving (h : x.state = .draining ∨ x.state = .stopping) : (warmTurn p x).bay = { x.opOver.clearArbiter with
    state := .released, faultCause := none, upkeepDue := false, upkeepTimer := none, service := none } := by
  rcases h with h | h <;> simp only [warmTurn, Bay.afterReset, h, BayState.afterReset]

theorem warmTurn_spinWait (h : x.state = .spinWait) : (warmTurn p x).bay = { x with powerOnSpin := false } := by
  simp only [warmTurn, Bay.afterReset, h, BayState.afterReset]

theorem warmTurn_rests (h : x.state = .released ∨ x.state = .faulted ∨ x.state = .empty) : (warmTurn p x).bay = x := by
  rcases h with h | h | h <;> simp only [warmTurn, Bay.afterReset, h, BayState.afterReset] <;> rw [← h]

end

theorem joins_warmTurn (p : Profile) (x : Bay) :
    (warmTurn p x).joins = (x.state == .spinWait || x.state == .spinning) := by
  unfold warmTurn
  cases x.state <;> rfl

theorem changes_warmTurn (p : Profile) (x : Bay) :
    (warmTurn p x).changes = (x.state == .spinning || x.state == .draining || x.state == .stopping) := by
  unfold warmTurn
  cases x.state <;> rfl

theorem warmReset_disksKept {s : State} (shaped : s.Shaped) : s.disksKept (warmReset s) := by
  rw [warmReset_restarted shaped]
  refine ⟨fun k hk => ?_, fun b hb => ?_, ?_, ?_⟩
  · have inside : k < s.loans.length := shaped.loans ▸ hk
    rw [State.slot, State.restarted_loans]
    simp [clearService, State.slot, List.getD_eq_getElem?_getD, inside, Slot.cleared]
  · rw [State.restarted_bay s warmTurn (v := clearService s) shaped.bays hb, State.restarted_profile,
      show (clearService s).bay b = s.bay b from rfl]
    refine ⟨warmTurn_keeps _ _, fun ready => ?_, fun spinning => ?_, fun leaving => ?_, warmTurn_spinWait, warmTurn_rests⟩
    · rw [warmTurn_ready ready]
      exact ⟨rfl, rfl, rfl, rfl, rfl, rfl, rfl, rfl⟩
    · rw [warmTurn_spinning spinning]
      exact ⟨rfl, rfl, rfl⟩
    · rw [warmTurn_leaving leaving]
      exact ⟨rfl, rfl, rfl⟩
  · rw [State.restarted_spinQueue]
    simp only [joins_warmTurn]
    rfl
  · rw [State.restarted_bayNotice]
    simp only [changes_warmTurn]
    rfl

/-- A reset finds of the service state only the store and the lines of the links. -/
theorem State.serviceCleared.of_lines {s u t : State} (h : u.serviceCleared t) (store : u.store = s.store)
    (lines : ∀ l, (u.link l).presence = (s.link l).presence ∧ (u.link l).lineReads = (s.link l).lineReads) :
    s.serviceCleared t := by
  have same (l : Nat) (placed : List OutRecord) : (u.link l).cleared l placed = (s.link l).cleared l placed := by
    rw [Link.cleared, Link.cleared, (lines l).1, (lines l).2]
  obtain ⟨waits, arrival, records, free, poolWait, channels, twins, saving, kept, supervisor, node, notices⟩ := h
  refine ⟨waits, arrival, records, free, poolWait, channels, twins, saving, kept.trans store, supervisor.trans (same 0 []),
    fun n hn => ?_, notices⟩
  rw [node n hn, same, (lines n).1]

/-- A pin reset and RESET SHELF keep the disks and the issues as they find them. -/
theorem State.disksKept.of_parts {s u t : State} (h : u.disksKept t) (bays : u.bays = s.bays) (loans : u.loans = s.loans) :
    s.disksKept t := by
  simp only [State.disksKept, State.slot, State.bay, bays, loans] at h ⊢
  exact h

/-- What a pin reset and RESET SHELF come to, the loan table, the disks, the store and the links' lines of `s` reaching the
clearing unchanged. -/
theorem warmReset_resets {s u : State} (shaped : u.Shaped) (bays : u.bays = s.bays) (loans : u.loans = s.loans)
    (store : u.store = s.store)
    (lines : ∀ l, (u.link l).presence = (s.link l).presence ∧ (u.link l).lineReads = (s.link l).lineReads) :
    s.serviceCleared (warmReset u) ∧ s.disksKept (warmReset u) ∧ (warmReset u).settings = u.settings ∧
      (warmReset u).cause = u.cause := by
  refine ⟨.of_lines ?_ store lines, (warmReset_disksKept shaped).of_parts bays loans, ?_, warmReset_cause u⟩
  · rw [warmReset_restarted shaped]
    exact fresh_serviceCleared shaped _
  · rw [warmReset_restarted shaped, State.restarted_settings]
    rfl

/-! ### RESET SHELF's frame (R188) -/

/-- The reload field is the first byte of the body. -/
theorem reloadOf_iff (body : List Byte) : reloadOf body = true ↔ body.head? = some 1 := by
  cases body with
  | nil => decide
  | cons b bs =>
    have first : field (b :: bs) 0 1 = b.toNat := by simp [field, ofBytes]
    have one : b.toNat = 1 ↔ b = 1 := BitVec.toNat_inj (y := 1)
    simp [reloadOf, first, one]

/-- The state after RESET SHELF's frame has been taken, its cause flag set. -/
def State.shelfReset (s : State) : State :=
  { s.setLink 0 (s.link 0).taken with cause := { s.cause with shelf := true } }

theorem exec_resetShelf {s : State} {f : Frame} (h : s.CanTake 0 kindResetShelf 0 f) : exec .resetShelf s =
    .next (warmReset (if reloadOf f.body then loadSettings s.shelfReset else s.shelfReset)) := by
  show execResetShelf s = _
  rw [execResetShelf, h.takeHead (needs := noEntry)]
  rfl

theorem shelfReset_shaped {s : State} (shaped : s.Shaped) : s.shelfReset.Shaped :=
  ⟨by simpa [State.shelfReset] using shaped.links, shaped.loans, shaped.bays, shaped.channels, shaped.twins, shaped.profiles,
    shaped.nodeTable⟩

theorem shelfReset_lines {s : State} (inside : 0 < s.links.length) (l : Nat) :
    (s.shelfReset.link l).presence = (s.link l).presence ∧ (s.shelfReset.link l).lineReads = (s.link l).lineReads := by
  show ((s.setLink 0 (s.link 0).taken).link l).presence = _ ∧ ((s.setLink 0 (s.link 0).taken).link l).lineReads = _
  by_cases first : l = 0
  · rw [first, State.link_setLink_self _ _ _ inside]
    exact ⟨rfl, rfl⟩
  · rw [State.link_setLink_ne _ _ _ _ (Ne.symm first)]
    exact ⟨rfl, rfl⟩

/-- Settles O56: a seated bay that its loaded profile enables starts in its turn (`powerBay_eq`), and the turns of all bays
make the spin queue and the BAY notice (`eachBay_eq`). -/
theorem powerOnStarts : Obligations.PowerOnStarts := by
  intro s shaped
  let base := loadSettings (poweredBase s)
  have size : base.bays.length = Config.bays := poweredBase_bays shaped
  have bay (b : Nat) (hb : b < 24) : base.bay b = (s.bay b).powered := poweredBase_bay (shaped.bays ▸ hb)
  have starts (b : Nat) (hb : b ∈ List.range 24) :
      ((base.bay b).presence && (base.profile b).enabled) = ((s.bay b).presence && ((powerOn s).profile b).enabled) := by
    rw [bay b (List.mem_range.mp hb), powerOn_restarted shaped, State.restarted_profile]
    rfl
  have queue : (powerOn s).spinQueue =
      (List.range 24).filter fun b => (s.bay b).presence && ((powerOn s).profile b).enabled := by
    rw [← List.filter_congr starts, powerOn_restarted shaped, State.restarted_spinQueue]
    rfl
  refine ⟨powerOn s, rfl, ?_, fun k hk => ?_, ?_, ?_, fun b hb => ?_, queue, ?_⟩
  · rw [powerOn_restarted shaped]
    exact fresh_serviceCleared shaped _
  · rw [State.slot, powerOn_loans, List.getD_eq_getElem?_getD, List.getElem?_replicate]
    exact if_pos hk ▸ rfl
  · rw [powerOn_restarted shaped, State.restarted_settings]
    rfl
  · rw [powerOn_restarted shaped, State.restarted_cause]
    show ({ power := true, pin := false, shelf := false, defaults := false || (loadImage s.store).2 } : Cause) = _
    rw [Bool.false_or]
  · rw [powerOn_restarted shaped, State.restarted_bay s powerTurn size hb, State.restarted_profile, bay b hb, powerTurn_powered]
  · rw [queue, ← List.filter_congr starts, powerOn_restarted shaped, State.restarted_bayNotice]
    rfl

/-- Settles O57: each bay's turn by its state (`warmTurn_ready` and the like), and all that is cleared and kept
(`warmReset_resets`), the taking of RESET SHELF's frame touching none of it. -/
theorem warmResetsKeepDisks : Obligations.WarmResetsKeepDisks := by
  intro s shaped
  refine ⟨?_, fun f h => ⟨fun stays => ?_, fun reload => ?_⟩⟩
  · let u : State := { s with cause := { s.cause with pin := true } }
    have resets : exec .pinReset s = .next (warmReset u) := rfl
    exact ⟨_, resets, warmReset_resets (shaped.withCause _) rfl rfl rfl fun _ => ⟨rfl, rfl⟩⟩
  · have resets : exec .resetShelf s = .next (warmReset s.shelfReset) := by
      rw [exec_resetShelf h, if_neg ((reloadOf_iff f.body).not.mpr stays)]
    exact ⟨_, resets, warmReset_resets (shelfReset_shaped shaped) rfl rfl rfl (shelfReset_lines h.lt)⟩
  · have resets : exec .resetShelf s = .next (warmReset (loadSettings s.shelfReset)) := by
      rw [exec_resetShelf h, if_pos ((reloadOf_iff f.body).mpr reload)]
    exact ⟨_, resets, warmReset_resets (loadSettings_shaped (shelfReset_shaped shaped)) rfl rfl rfl (shelfReset_lines h.lt)⟩

end Sys2Proof.Machine
end

section
/-! PROOFS. The step (O1), by the two shapes of the queue. -/

namespace Sys2Proof.Machine

theorem step_pending_cons (c : Instr) (rest : List Instr) (s : State) :
    step { s with pending := c :: rest } = exec c { s with pending := rest } := rfl

theorem step_pending_nil {s : State} (idle : s.pending = []) : step s = .next s := by
  rw [step, idle]

/-- Settles O1: a queue with a front command (`step_pending_cons`), and the empty queue (`step_pending_nil`). -/
theorem stepRunsFront : Obligations.StepRunsFront :=
  ⟨step_pending_cons, fun _ => step_pending_nil⟩

end Sys2Proof.Machine
end
